-- ==== Sys2Proof/Word.lean ====
section
/-!
DEFINITION. The words of the block and the small closed sets of names its rules use
(spec/00_scope.md R9; spec/30_encoding.md R80, R82, R87).
-/

namespace Sys2Proof

/-- An unsigned integer of 32 bits (R9). -/
abbrev U32 := BitVec 32

/-- An unsigned integer of 64 bits (R9). -/
abbrev U64 := BitVec 64

/-- A step label: `op` in bits 7..4, `arg` in bits 3..0 (R80). -/
abbrev Label := BitVec 8

/-- The read context `c` of the four timer-read steps (R82). -/
inductive Ctx where
  /-- `c = 0`: the start-up read, which sets `cycle_start`. -/
  | startup
  /-- `c = 1`: the loop read, which feeds ENV_EVAL. -/
  | loop
  deriving DecidableEq, Repr, Inhabited

/-- The four kinds of log event (R87). -/
inductive LogKind where
  | banner
  | status
  | peak
  | trough
  deriving DecidableEq, Repr, Inhabited

/-- A log event: its kind, and `duty` and `rising` at the end of the step that queued it (R87). -/
structure LogEvent where
  kind : LogKind
  duty : U32
  rising : Bool
  deriving DecidableEq, Repr

end Sys2Proof
end

