-- ==== Sys2Proof/Syntax.lean ====
section
/-!
DEFINITION. The step kinds of the block, one constructor per row of spec/opcode_table.json
(spec/30_encoding.md R81, R82). The argument fields are typed, so every term is a legal label.
-/

namespace Sys2Proof

/-- The eleven step kinds of R81. -/
inductive Instr where
  /-- RESET, the external input (R200); `ctl` never holds it. -/
  | reset
  /-- INIT, the start-up of the envelope (R130). -/
  | init
  /-- TR_HI1 c, the first high read (R100). -/
  | trHi1 (c : Ctx)
  /-- TR_LO c, the low read (R101). -/
  | trLo (c : Ctx)
  /-- TR_HI2 c, the second high read (R102). -/
  | trHi2 (c : Ctx)
  /-- TR_CMP c, the comparison and result (R103). -/
  | trCmp (c : Ctx)
  /-- ENV_EVAL, which computes `elapsed` and chooses the phase (R135). -/
  | envEval
  /-- PHASE_A, the level within the period (R140). -/
  | phaseA
  /-- PHASE_B, the boundary event (R150). -/
  | phaseB
  /-- GPIO_SET l, the LED write (R145). -/
  | gpioSet (l : Bool)
  /-- LOG_EMIT k, the offer of the head log event (R160). -/
  | logEmit (k : LogKind)
  deriving DecidableEq, Repr

end Sys2Proof
end

