-- ==== Sys2Proof/Decode.lean ====
section
/-!
DEFINITION. Decoding a step label, total on all 256 bytes and rejecting by name
(spec/30_encoding.md R80 to R84), and the encoder written from the same label map.
-/

namespace Sys2Proof

/-- Bits 7..4, the step kind (R80). -/
def opField (w : Label) : BitVec 4 := w.extractLsb' 4 4

/-- Bits 3..0, the step's argument (R80). -/
def argField (w : Label) : BitVec 4 := w.extractLsb' 0 4

/-- Why a label is reserved: the two cases of R83. -/
inductive ReservedBecause where
  /-- `op` is `1011` to `1111`. -/
  | unusedOp (op : BitVec 4)
  /-- A used `op` with a non-zero bit where R82 requires 0. -/
  | argBits (op arg : BitVec 4)
  deriving DecidableEq, Repr

/-- What a label decodes to: exactly one row of R81, or "reserved" (R84). -/
inductive Decoded where
  | step (i : Instr)
  | reserved (why : ReservedBecause)
  deriving DecidableEq, Repr

/-- A label whose four argument bits must be 0 (R82). -/
def decodePlain (w : Label) (i : Instr) : Decoded :=
  match (argField w).toNat with
  | 0 => .step i
  | _ => .reserved (.argBits (opField w) (argField w))

/-- A label with the read context `c` in bit 0 (R82). -/
def decodeCtx (w : Label) (mk : Ctx → Instr) : Decoded :=
  match (argField w).toNat with
  | 0 => .step (mk .startup)
  | 1 => .step (mk .loop)
  | _ => .reserved (.argBits (opField w) (argField w))

/-- A label with the level `l` in bit 0 (R82). -/
def decodeLevel (w : Label) (mk : Bool → Instr) : Decoded :=
  match (argField w).toNat with
  | 0 => .step (mk false)
  | 1 => .step (mk true)
  | _ => .reserved (.argBits (opField w) (argField w))

/-- A label with the event kind `kk` in bits 1..0, coded as R87 says (R82). -/
def decodeKind (w : Label) (mk : LogKind → Instr) : Decoded :=
  match (argField w).toNat with
  | 0 => .step (mk .banner)
  | 1 => .step (mk .status)
  | 2 => .step (mk .peak)
  | 3 => .step (mk .trough)
  | _ => .reserved (.argBits (opField w) (argField w))

/-- The label map of R81, read from a byte. -/
def decode (w : Label) : Decoded :=
  match (opField w).toNat with
  | 0b0000 => decodePlain w .reset
  | 0b0001 => decodePlain w .init
  | 0b0010 => decodeCtx w .trHi1
  | 0b0011 => decodeCtx w .trLo
  | 0b0100 => decodeCtx w .trHi2
  | 0b0101 => decodeCtx w .trCmp
  | 0b0110 => decodePlain w .envEval
  | 0b0111 => decodePlain w .phaseA
  | 0b1000 => decodePlain w .phaseB
  | 0b1001 => decodeLevel w .gpioSet
  | 0b1010 => decodeKind w .logEmit
  | _ => .reserved (.unusedOp (opField w))

/-- The reserved labels as R83 lists them, by the two fields and independently of `decode`. -/
def reservedLabel (w : Label) : Bool :=
  let op := (opField w).toNat
  let arg := (argField w).toNat
  decide (0b1011 ≤ op) ||
    (decide (op ∈ [0b0000, 0b0001, 0b0110, 0b0111, 0b1000]) && decide (arg ≠ 0)) ||
    (decide (op ∈ [0b0010, 0b0011, 0b0100, 0b0101, 0b1001]) && decide (2 ≤ arg)) ||
    (decide (op = 0b1010) && decide (4 ≤ arg))

/-- The argument bits of a read context (R82). -/
def Ctx.arg : Ctx → BitVec 4
  | .startup => 0b0000
  | .loop => 0b0001

/-- The argument bits of a level (R82). -/
def levelArg : Bool → BitVec 4
  | false => 0b0000
  | true => 0b0001

/-- The argument bits of an event kind (R82, R87). -/
def LogKind.arg : LogKind → BitVec 4
  | .banner => 0b0000
  | .status => 0b0001
  | .peak => 0b0010
  | .trough => 0b0011

/-- The label byte of a step: `op` then `arg` (R80, R81). -/
def encode : Instr → Label
  | .reset => 0b0000#4 ++ 0b0000#4
  | .init => 0b0001#4 ++ 0b0000#4
  | .trHi1 c => 0b0010#4 ++ c.arg
  | .trLo c => 0b0011#4 ++ c.arg
  | .trHi2 c => 0b0100#4 ++ c.arg
  | .trCmp c => 0b0101#4 ++ c.arg
  | .envEval => 0b0110#4 ++ 0b0000#4
  | .phaseA => 0b0111#4 ++ 0b0000#4
  | .phaseB => 0b1000#4 ++ 0b0000#4
  | .gpioSet l => 0b1001#4 ++ levelArg l
  | .logEmit k => 0b1010#4 ++ k.arg

/-- The step the decoder reads from a table word: every label is one byte (R80), so the byte is
the low eight bits of `w`, and a word with a bit above them is no label. -/
def decodeTableWord (nbits w : Nat) : Option Instr :=
  if nbits = 8 ∧ w < 256 then
    match decode (BitVec.ofNat 8 w) with
    | .step i => some i
    | .reserved _ => none
  else none

end Sys2Proof
end

