-- ==== Sys2Proof/Config.lean ====
section
/-!
DEFINITION. The configuration record (spec/00_scope.md R7) and what the environment chooses
(R11, the draws; R40, R60, R69, R200). The one free value of the model is `Config.freeInput`.
-/

namespace Sys2Proof

/-- INIT_CYCLE_START (R7). -/
inductive InitMode where
  | timerRead
  | zero
  deriving DecidableEq, Repr

/-- The configuration record `Cfg` of R7, fixed for the whole run. -/
structure Cfg where
  /-- PWM_PERIOD, in ticks. -/
  pwmPeriod : U64
  /-- DUTY_STEPS. -/
  dutySteps : U32
  /-- CYCLES_PER_STEP. -/
  cyclesPerStep : U32
  /-- TIMER_FREQ in Hz, informative: no rule reads it. -/
  timerFreq : Nat
  /-- PWM_FREQ in Hz, informative: no rule reads it. -/
  pwmFreq : Nat
  /-- TIMER_LO_ADDR. -/
  timerLoAddr : Nat
  /-- TIMER_HI_ADDR. -/
  timerHiAddr : Nat
  /-- GPIO_ADDR. -/
  gpioAddr : Nat
  /-- ADDR_W, the width of a byte address in bits. -/
  addrW : Nat
  /-- INIT_CYCLE_START. -/
  initCycleStart : InitMode
  deriving DecidableEq, Repr

/-- The configuration `State.reset` carries: R7's defaults, and for the OPEN parameters the values
of spec/95_test_vectors.md. DESIGN CHOICE, unsafe, log entry 4: no statement rests on the OPEN ones. -/
def Cfg.standard : Cfg where
  pwmPeriod := 160000
  dutySteps := 100
  cyclesPerStep := 2
  timerFreq := 160000000
  pwmFreq := 1000
  timerLoAddr := 0x40000000
  timerHiAddr := 0x40000004
  gpioAddr := 0x40001000
  addrW := 32
  initCycleStart := .timerRead

/-- The period of a `Cfg` derived from frequencies, by floor division
(spec/92_eei_decisions.md D26). -/
def Cfg.periodOfFreqs (c : Cfg) : Nat := c.timerFreq / c.pwmFreq

/-- What the agents outside the block choose for one step opportunity: the draws of R11 and the
answers of CNT, the bus, LOG and the reset input. -/
structure EnvInput where
  /-- `draw("tick advance", naturals)`: how far CNT advances before the step (R40). -/
  ticks : Nat
  /-- RESET is asserted, in place of the block's next step (R191, R200). -/
  reset : Bool
  /-- The bus answers the step's access with an error response (R69). -/
  busError : Bool
  /-- LOG accepts the event the step offers (R60). -/
  logAccept : Bool
  /-- `draw("banner", …)` of INIT (R130). -/
  banner : Bool
  /-- `draw("status", …)` of PHASE_B (R150). -/
  status : Bool
  /-- `draw("log order", …)` of PHASE_B: true exchanges its two events (R150). -/
  swap : Bool
  deriving DecidableEq, Repr, Inhabited

/-- The conventions of spec/95_test_vectors.md: no advance, no RESET, no bus error, LOG accepts,
every draw false and the identity order. -/
def EnvInput.quiet : EnvInput where
  ticks := 0
  reset := false
  busError := false
  logAccept := true
  banner := false
  status := false
  swap := false

/-- A FREE VALUE: what the environment chooses at the n-th step opportunity of a run that no tape
of State names. It has no body: nothing constrains it (R11 "under no law"; log entry 3). -/
opaque Config.freeInput : Nat → EnvInput

end Sys2Proof
end

