-- ==== Sys2Proof/WellFormed.lean ====
section
/-!
DEFINITION. Well-formedness: the checks of a configuration (spec/00_scope.md R8) and the steps
`ctl` may hold (spec/10_state.md R31). A term of `Instr` is a legal label by its type.
-/

namespace Sys2Proof

/-- `PWM_PERIOD >= 1`, `DUTY_STEPS >= 1`, `CYCLES_PER_STEP >= 1` (R8). -/
def Cfg.positive (c : Cfg) : Bool :=
  decide (1 ≤ c.pwmPeriod.toNat) && decide (1 ≤ c.dutySteps.toNat) &&
    decide (1 ≤ c.cyclesPerStep.toNat)

/-- `PWM_PERIOD * DUTY_STEPS <= 2^64 - 1`, as a mathematical product (R8). -/
def Cfg.productFits (c : Cfg) : Bool :=
  decide (c.pwmPeriod.toNat * c.dutySteps.toNat ≤ 2 ^ 64 - 1)

/-- Each device address is a multiple of 4 (R8). -/
def Cfg.aligned (c : Cfg) : Bool :=
  decide (c.timerLoAddr % 4 = 0) && decide (c.timerHiAddr % 4 = 0) && decide (c.gpioAddr % 4 = 0)

/-- The three device addresses are pairwise distinct (R8). -/
def Cfg.distinct (c : Cfg) : Bool :=
  decide (c.timerLoAddr ≠ c.timerHiAddr) && decide (c.timerLoAddr ≠ c.gpioAddr) &&
    decide (c.timerHiAddr ≠ c.gpioAddr)

/-- Every device address is below `2^ADDR_W` (R8). -/
def Cfg.inRange (c : Cfg) : Bool :=
  decide (c.timerLoAddr < 2 ^ c.addrW) && decide (c.timerHiAddr < 2 ^ c.addrW) &&
    decide (c.gpioAddr < 2 ^ c.addrW)

/-- A configuration is well-formed when all the checks of R8 hold. -/
def Cfg.wf (c : Cfg) : Bool :=
  c.positive && c.productFits && c.aligned && c.distinct && c.inRange

/-- The steps whose label `ctl` may hold: every one but RESET (R31). -/
def Instr.mayBeHeld : Instr → Bool
  | .reset => false
  | .init | .trHi1 _ | .trLo _ | .trHi2 _ | .trCmp _ | .envEval | .phaseA | .phaseB
  | .gpioSet _ | .logEmit _ => true

end Sys2Proof
end

