-- ==== Sys2Proof/Machine/State.lean ====
section
/-!
DEFINITION. The state of the machine: the block's registers (spec/10_state.md R21), the external
agents (R38, R41, R42), the run's records (R43; spec/60_exceptions.md R180, R187), the
configuration (R20) and the environment's choices (log entry 3); the faults and refusals; and the
machine right after reset (spec/70_reset_and_hazards.md R200).
-/

namespace Sys2Proof.Machine

/-- A register cell: "either unwritten or holds a value of its width" (R12). `unwritten` is the
spec's own reset value of every data register and latch (R200; log entry 1). -/
inductive Cell (α : Type) where
  | unwritten
  | written (v : α)
  deriving DecidableEq, Repr

/-- Apply a function to the value of a cell that holds one. -/
def Cell.map {α β : Type} (f : α → β) : Cell α → Cell β
  | .unwritten => .unwritten
  | .written v => .written (f v)

/-- The registers a step can find unwritten (R183: "The record holds the register name"). -/
inductive RegName where
  | duty
  | rising
  | cycleCount
  | cycleStart
  | now
  | elapsed
  | ledOn
  | h1
  | lo
  | h2
  deriving DecidableEq, Repr

/-- The three fault kinds of R180, each with the record its rule gives. -/
inductive Fault where
  /-- Raised by TR_HI1, TR_LO, TR_HI2 and GPIO_SET when the bus answers with an error; holds the step
  label, the address and, for a write, the data (R181). Safe: the access gets no value. -/
  | busError (label : Label) (addr : Nat) (data : Option U32)
  /-- Raised by PHASE_A and PHASE_B when `EnvWF` fails at the start of the step; holds the three
  registers (R182). Safe: unreachable from RESET (R170). -/
  | envInvariant (duty : U32) (rising : Bool) (cycleCount : U32)
  /-- Raised by TR_CMP, ENV_EVAL, PHASE_A and PHASE_B when a register they read is unwritten (R183).
  Safe: unreachable from RESET (R171). -/
  | unwrittenRead (reg : RegName)
  deriving DecidableEq, Repr

/-- The refusals of R186 to R188. -/
inductive Refusal where
  /-- The instruction has no meaning yet; no arm of `exec` raises it. Safe. -/
  | notModelled (mnemonic : String)
  /-- Raised by `step` for a configuration that fails R8, before any step (R186). Safe. -/
  | configIllFormed
  /-- Raised by `step` when `ctl` is a reserved label or RESET (R187). Safe. -/
  | reservedLabel (ctl : Label)
  /-- Raised by LOG_EMIT when `log_q` is empty or its head has another kind (R188). Safe. -/
  | stateIllFormed
  deriving DecidableEq, Repr

/-- Why the block has no further step until RESET (R180, R187). -/
inductive StopReason where
  | faulted (f : Fault)
  | refused (r : Refusal)
  deriving DecidableEq, Repr

/-- One entry of the event history `Hist` (R43, R69). -/
inductive HistEntry where
  /-- `Rd(addr, v)`. -/
  | rd (addr : Nat) (v : U32)
  /-- `Wr(addr, v)`. -/
  | wr (addr : Nat) (v : U32)
  /-- `Rd(addr, ⊥)`: the bus answered the read with an error (R69). -/
  | rdError (addr : Nat)
  /-- `Wr(addr, v)` with the error (R69). -/
  | wrError (addr : Nat) (v : U32)
  /-- `Log(ev)`, an accepted event. -/
  | log (ev : LogEvent)
  /-- `Reset`. -/
  | reset
  deriving DecidableEq, Repr

/-- The state of the machine. -/
structure State where
  /-- The configuration, a parameter no step writes (R7, R20; log entry 4). -/
  cfg : Cfg
  /-- The label of the step the block performs next (R31). -/
  ctl : Label
  /-- The current duty level (R22). -/
  duty : Cell U32
  /-- The direction of the envelope (R23). -/
  rising : Cell Bool
  /-- Boundary events since the last duty step (R24). -/
  cycleCount : Cell U32
  /-- The tick at which the current PWM period began (R25). -/
  cycleStart : Cell U64
  /-- The value of the most recent completed timer read (R26). -/
  now : Cell U64
  /-- `now - cycle_start`, between ENV_EVAL and PHASE_A (R27). -/
  elapsed : Cell U64
  /-- The last level written to the GPIO register (R28). -/
  ledOn : Cell Bool
  /-- The first high half of the current attempt (R29). -/
  h1 : Cell U32
  /-- The low half of the current attempt (R29). -/
  lo : Cell U32
  /-- The second high half of the current attempt (R29). -/
  h2 : Cell U32
  /-- The log events still to be offered (R32). -/
  logQ : List LogEvent
  /-- The ghost count of failed attempts (R30). -/
  trRetries : Cell Nat
  /-- `C`, the counter CNT (R38). -/
  cnt : U64
  /-- `G`, the GPIO output register (R41). -/
  gpio : U32
  /-- The events LOG has accepted, oldest first (R42). -/
  log : List LogEvent
  /-- The event history `Hist`, oldest first (R43). -/
  hist : List HistEntry
  /-- The fault or refusal that has stopped the block until RESET, if any (R180, R191). -/
  stop : Option StopReason
  /-- The sticky record of every fault of the run, oldest first (R180). -/
  faults : List Fault
  /-- The sticky refusal mark of the run (R187). -/
  refused : Bool
  /-- The environment's choices for the coming step opportunities, next first (log entry 3). -/
  env : List EnvInput
  /-- The number of step opportunities so far, which names the next free value (log entry 3). -/
  draws : Nat
  deriving DecidableEq, Repr

/-- What a step, or the meaning of an instruction, answers. -/
abbrev Result := Host.Outcome State Fault Refusal

/-- What `step` does next: a step runs on a state, is refused on it before any meaning, or the
block has no step at all. -/
inductive Selection where
  | run (i : Instr) (s : State)
  | reject (r : Refusal) (s : State)
  | halt (r : StopReason)
  deriving DecidableEq, Repr

/-- The machine right after the first RESET of a run, for any configuration and any values of `C`
and `G` at power-on (R200, R38, R41). -/
def State.powerOn (cfg : Cfg) (cnt : U64) (gpio : U32) : State where
  cfg := cfg
  ctl := 0x10
  duty := .unwritten
  rising := .unwritten
  cycleCount := .unwritten
  cycleStart := .unwritten
  now := .unwritten
  elapsed := .unwritten
  ledOn := .unwritten
  h1 := .unwritten
  lo := .unwritten
  h2 := .unwritten
  logQ := []
  trRetries := .unwritten
  cnt := cnt
  gpio := gpio
  log := []
  hist := [.reset]
  stop := none
  faults := []
  refused := false
  env := []
  draws := 0

/-- The machine right after reset (R200). DESIGN CHOICE, unsafe: the OPEN parameters (log entry 4)
and `C = 0`, `G = 0` at power-on (log entry 5); statements about reset are made of `State.powerOn`. -/
def State.reset : State := State.powerOn Cfg.standard 0 0

end Sys2Proof.Machine
end

