-- ==== Sys2Proof/Machine/Flags.lean ====
section
/-!
DEFINITION. The computations of the envelope registers and of the block's two flags, `rising` and
`led_on` (spec/10_state.md R34, R36; spec/41_envelope.md R140, R150). They are exact: the
arithmetic the rules call impossible to overflow is done on natural numbers or guarded by `envWF`.
-/

namespace Sys2Proof.Machine

/-- `EnvWF` of the envelope registers (R36). -/
def envWF (cfg : Cfg) (duty : U32) (rising : Bool) (cycleCount : U32) : Bool :=
  decide (duty.toNat ≤ cfg.dutySteps.toNat) &&
    decide (cycleCount.toNat < cfg.cyclesPerStep.toNat) &&
    (if rising then decide (duty.toNat < cfg.dutySteps.toNat) else decide (0 < duty.toNat))

/-- `on_ticks = (PWM_PERIOD * duty) div DUTY_STEPS`, exact (R140, R10). -/
def onTicks (cfg : Cfg) (duty : U32) : Nat :=
  cfg.pwmPeriod.toNat * duty.toNat / cfg.dutySteps.toNat

/-- The desired LED level, `elapsed < on_ticks` (R140). -/
def desiredLevel (cfg : Cfg) (duty : U32) (elapsed : U64) : Bool :=
  decide (elapsed.toNat < onTicks cfg duty)

/-- Whether the incremented count reaches CYCLES_PER_STEP: a duty step (R150). -/
def dutyStepDue (cfg : Cfg) (cycleCount : U32) : Bool :=
  decide (cfg.cyclesPerStep.toNat ≤ cycleCount.toNat + 1)

/-- `cycle_count` after a boundary event (R150). -/
def nextCount (cfg : Cfg) (cycleCount : U32) : U32 :=
  if dutyStepDue cfg cycleCount then 0 else cycleCount + 1

/-- `duty` after a boundary event (R150). -/
def nextDuty (cfg : Cfg) (duty : U32) (rising : Bool) (cycleCount : U32) : U32 :=
  if dutyStepDue cfg cycleCount then (if rising then duty + 1 else duty - 1) else duty

/-- The flip of a boundary event, as the event it emits: PEAK when a rising step reaches
DUTY_STEPS, TROUGH when a falling step reaches 0 (R150). -/
def flipEvent (cfg : Cfg) (duty : U32) (rising : Bool) (cycleCount : U32) : Option LogKind :=
  if dutyStepDue cfg cycleCount then
    if rising then
      if cfg.dutySteps.toNat ≤ (nextDuty cfg duty rising cycleCount).toNat then some .peak
      else none
    else if (nextDuty cfg duty rising cycleCount).toNat = 0 then some .trough
    else none
  else none

/-- `rising` after a boundary event: changed exactly by a flip (R150, R152). -/
def nextRising (cfg : Cfg) (duty : U32) (rising : Bool) (cycleCount : U32) : Bool :=
  match flipEvent cfg duty rising cycleCount with
  | some .peak => false
  | some .trough => true
  | _ => rising

end Sys2Proof.Machine
end

