-- ==== Sys2Proof/Machine/Operands.lean ====
section
/-!
DEFINITION. Operands (spec/30_encoding.md R85): reading a register cell, what the environment
chooses for this step, and the data words of R86 and R88.
-/

namespace Sys2Proof.Machine

/-- Read a register: go on with its value, or fault `UnwrittenRead` with its name (R12, R183). -/
def needReg {α : Type} (c : Cell α) (r : RegName) (k : α → Result) : Result :=
  match c with
  | .unwritten => .fault (.unwrittenRead r)
  | .written v => k v

/-- The environment's choices for this step opportunity: the head of the tape, or past its end the
free value of this draw (R11; log entry 3). -/
def State.input (s : State) : EnvInput :=
  match s.env with
  | [] => Config.freeInput s.draws
  | i :: _ => i

/-- The 64-bit value of one consistent attempt: `(zext_64(h1) << 32) | zext_64(lo)` (R86). -/
def timerValue (h1 lo : U32) : U64 := (h1.setWidth 64 <<< 32) ||| lo.setWidth 64

/-- The high half `C[63:32]` of the counter (R39). -/
def highHalf (c : U64) : U32 := c.extractLsb' 32 32

/-- The low half `C[31:0]` of the counter (R39). -/
def lowHalf (c : U64) : U32 := c.extractLsb' 0 32

/-- The GPIO data word of a level: `zext_32(l)` (R88). -/
def ledWord (l : Bool) : U32 := (BitVec.ofBool l).setWidth 32

end Sys2Proof.Machine
end

