-- ==== Sys2Proof/Machine/Ops.lean ====
section
/-!
DEFINITION. The operations the rules share: bus accesses and the log port (spec/00_scope.md R11,
spec/20_memory.md R53 to R60, R69), the choice of the next label, the reset of the block (R200),
the stop on a fault or a refusal (spec/60_exceptions.md R180, R187), and what `step` is made of
(R185, R186, R191; spec/10_state.md R40).
-/

namespace Sys2Proof.Machine

/-- Append one entry to the event history (R43). -/
def State.record (s : State) (e : HistEntry) : State := { s with hist := s.hist ++ [e] }

/-- What the addressed device presents to a read: the matching half of `C`; nothing where no
readable register stands (R51, R55, R56). -/
def State.present (s : State) (addr : Nat) : Option U32 :=
  if addr = s.cfg.timerHiAddr then some (highHalf s.cnt)
  else if addr = s.cfg.timerLoAddr then some (lowHalf s.cnt)
  else none

/-- `MemRead(addr, 4)` by step `i`: one 32-bit read, recorded; a bus error faults (R53, R69, R181).
No step of a well-formed configuration reads an address that presents nothing (log entry 13). -/
def memRead (i : Instr) (addr : Nat) (s : State) (k : U32 → State → Result) : Result :=
  if s.input.busError then .fault (.busError (encode i) addr none)
  else
    match s.present addr with
    | some v => k v (s.record (.rd addr v))
    | none => .fault (.busError (encode i) addr none)

/-- The GPIO register takes the whole word written to its address (R54). -/
def State.deviceWrite (s : State) (addr : Nat) (v : U32) : State :=
  { s with gpio := if addr = s.cfg.gpioAddr then v else s.gpio }

/-- `MemWrite(addr, 4, v)` by step `i`: one 32-bit write, recorded; a bus error faults (R54, R69). -/
def memWrite (i : Instr) (addr : Nat) (v : U32) (s : State) (k : State → Result) : Result :=
  if s.input.busError then .fault (.busError (encode i) addr (some v))
  else k ((s.deviceWrite addr v).record (.wr addr v))

/-- LOG accepts an event (R42, R60). -/
def State.acceptLog (s : State) (ev : LogEvent) : State :=
  { s with log := s.log ++ [ev], hist := s.hist ++ [.log ev] }

/-- `LogOffer(ev)`: goes on only when LOG accepts; otherwise the step holds, and the block is as it
was (R60; log entry 14). -/
def logOffer (ev : LogEvent) (s : State) (k : State → Result) : Result :=
  if s.input.logAccept then k (s.acceptLog ev) else .next s

/-- `(log_q != []) ? LOG_EMIT kind(head(log_q)) : TR_HI1 1` (R103, R130, R150, R160). -/
def afterLog (q : List LogEvent) : Label :=
  match q with
  | [] => encode (.trHi1 .loop)
  | ev :: _ => encode (.logEmit ev.kind)

/-- The kinds of the events of one boundary, before they are ordered (R150). -/
def boundaryKinds (flip : Option LogKind) (status : Bool) : List LogKind :=
  flip.toList ++ (if status then [.status] else [])

/-- The drawn order: the two permutations of at most two events (R150, R153). -/
def ordered (swap : Bool) (ks : List LogKind) : List LogKind := if swap then ks.reverse else ks

/-- The queue of one boundary, each event with the new `duty` and `rising` (R87, R150). -/
def boundaryQueue (inp : EnvInput) (flip : Option LogKind) (duty : U32) (rising : Bool) :
    List LogEvent :=
  (ordered inp.swap (boundaryKinds flip inp.status)).map fun k => ⟨k, duty, rising⟩

/-- What RESET does to the block and the history; CNT, GPIO, LOG and the sticky records stay, and it
ends any stop (R200, R191). -/
def State.resetBlock (s : State) : State :=
  { s with
    ctl := encode .init
    duty := .unwritten, rising := .unwritten, cycleCount := .unwritten
    cycleStart := .unwritten, now := .unwritten, elapsed := .unwritten, ledOn := .unwritten
    h1 := .unwritten, lo := .unwritten, h2 := .unwritten
    trRetries := .unwritten
    logQ := []
    hist := s.hist ++ [.reset]
    stop := none }

/-- CNT advances by the drawn number of ticks before a block step (R40). -/
def State.advanceCnt (s : State) : State :=
  { s with cnt := s.cnt + BitVec.ofNat 64 s.input.ticks }

/-- The step opportunity is used up (log entry 3). -/
def State.consume (s : State) : State := { s with env := s.env.tail, draws := s.draws + 1 }

/-- The access a fault leaves in the history: a bus error's (R69; log entry 15). -/
def Fault.histEntries : Fault → List HistEntry
  | .busError _ addr none => [.rdError addr]
  | .busError _ addr (some v) => [.wrError addr v]
  | .envInvariant _ _ _ => []
  | .unwrittenRead _ => []

/-- TAKING A FAULT: the sticky record, the access of a bus error, and the stop; the step makes no
other write (R180, R69, R190). -/
def State.recordFault (s : State) (f : Fault) : State :=
  { s with
    faults := s.faults ++ [f]
    hist := s.hist ++ f.histEntries
    stop := some (.faulted f) }

/-- A refused step: the sticky mark and the stop (R187; log entry 6). -/
def State.recordRefusal (s : State) (r : Refusal) : State :=
  { s with refused := true, stop := some (.refused r) }

/-- What one step opportunity makes of a meaning's answer: a fault or a refusal stops the block and
is recorded (R180, R187; log entries 2 and 6). -/
def State.settle (s : State) (o : Result) : Result :=
  match o with
  | .next t => .next t.consume
  | .fault f => .next (s.recordFault f).consume
  | .refused r => .next (s.recordRefusal r).consume

/-- Which step comes: the configuration check comes before any step, then RESET, then a stop, then
the label in `ctl` (R185, R186, R187, R191). CNT advances before a block step (R40). -/
def State.select (s : State) : Selection :=
  if s.cfg.wf then
    if s.input.reset then .run .reset s
    else
      match s.stop with
      | some r => .halt r
      | none =>
        match decode s.ctl with
        | .reserved _ => .reject (.reservedLabel s.ctl) s.advanceCnt
        | .step i =>
          if i.mayBeHeld then .run i s.advanceCnt
          else .reject (.reservedLabel s.ctl) s.advanceCnt
  else .halt (.refused .configIllFormed)

/-- Put one chosen input at the head of the tape (log entry 10). -/
def State.withInput (s : State) (i : EnvInput) : State := { s with env := i :: s.env }

/-- Make `w` the label of the very next step: RESET is asserted on its input, any other label stands
in `ctl`; the input is quiet and nothing stops the block (R31, R200; log entry 10). -/
def State.placeLabel (s : State) (w : Label) : State :=
  if w = encode .reset then s.withInput { EnvInput.quiet with reset := true }
  else { s.withInput EnvInput.quiet with ctl := w, stop := none }

end Sys2Proof.Machine
end

