-- ==== Sys2Proof/Machine/Envelope.lean ====
section
/-!
DEFINITION. The PWM Envelope Generator operations (spec/41_envelope.md R130 to R160) and RESET
(spec/70_reset_and_hazards.md R200).
-/

namespace Sys2Proof.Machine

/-- RESET (R200). -/
def execReset (s : State) : Result := .next s.resetBlock

/-- The queue INIT leaves: the banner when it is drawn, with `duty` 0 and `rising` 1 (R130, R87). -/
def bannerQueue (drawn : Bool) : List LogEvent := if drawn then [⟨.banner, 0, true⟩] else []

/-- INIT (R130). -/
def execInit (s : State) : Result :=
  let t : State :=
    { s with
      duty := .written 0, rising := .written true, cycleCount := .written 0
      ledOn := .written false, trRetries := .written 0
      logQ := bannerQueue s.input.banner }
  match s.cfg.initCycleStart with
  | .timerRead => .next { t with ctl := encode (.trHi1 .startup) }
  | .zero => .next { t with cycleStart := .written 0, ctl := afterLog t.logQ }

/-- ENV_EVAL (R135). -/
def execEnvEval (s : State) : Result :=
  needReg s.now .now fun now =>
  needReg s.cycleStart .cycleStart fun start =>
    .next
      { s with
        elapsed := .written (now - start)
        ctl := if s.cfg.pwmPeriod ≤ now - start then encode .phaseB else encode .phaseA }

/-- PHASE_A (R140). The operands of the rule are read first, then the rest of `EnvWF`
(R185; log entry 8). -/
def execPhaseA (s : State) : Result :=
  needReg s.duty .duty fun duty =>
  needReg s.elapsed .elapsed fun elapsed =>
  needReg s.ledOn .ledOn fun led =>
  needReg s.rising .rising fun rising =>
  needReg s.cycleCount .cycleCount fun cc =>
    if envWF s.cfg duty rising cc then
      let desired := desiredLevel s.cfg duty elapsed
      .next { s with ctl := if desired = led then encode (.trHi1 .loop)
                            else encode (.gpioSet desired) }
    else .fault (.envInvariant duty rising cc)

/-- PHASE_B (R150). -/
def execPhaseB (s : State) : Result :=
  needReg s.now .now fun now =>
  needReg s.cycleCount .cycleCount fun cc =>
  needReg s.duty .duty fun duty =>
  needReg s.rising .rising fun rising =>
    if envWF s.cfg duty rising cc then
      let duty' := nextDuty s.cfg duty rising cc
      let rising' := nextRising s.cfg duty rising cc
      let q := boundaryQueue s.input (flipEvent s.cfg duty rising cc) duty' rising'
      .next
        { s with
          cycleStart := .written now
          cycleCount := .written (nextCount s.cfg cc)
          duty := .written duty', rising := .written rising'
          logQ := q, ctl := afterLog q }
    else .fault (.envInvariant duty rising cc)

/-- GPIO_SET l (R145). -/
def execGpioSet (l : Bool) (s : State) : Result :=
  memWrite (.gpioSet l) s.cfg.gpioAddr (ledWord l) s fun t =>
    .next { t with ledOn := .written l, ctl := encode (.trHi1 .loop) }

/-- LOG_EMIT k (R160). -/
def execLogEmit (k : LogKind) (s : State) : Result :=
  match s.logQ with
  | [] => .refused .stateIllFormed
  | ev :: rest =>
    if ev.kind = k then
      logOffer ev s fun t => .next { t with logQ := rest, ctl := afterLog rest }
    else .refused .stateIllFormed

end Sys2Proof.Machine
end

