-- ==== Sys2Proof/Machine/TimerReader.lean ====
section
/-!
DEFINITION. The Timer Reader operations (spec/40_timer_reader.md R100 to R103).
-/

namespace Sys2Proof.Machine

/-- TR_HI1 c (R100). -/
def execTrHi1 (c : Ctx) (s : State) : Result :=
  memRead (.trHi1 c) s.cfg.timerHiAddr s fun v t =>
    .next { t with h1 := .written v, ctl := encode (.trLo c) }

/-- TR_LO c (R101). -/
def execTrLo (c : Ctx) (s : State) : Result :=
  memRead (.trLo c) s.cfg.timerLoAddr s fun v t =>
    .next { t with lo := .written v, ctl := encode (.trHi2 c) }

/-- TR_HI2 c (R102). -/
def execTrHi2 (c : Ctx) (s : State) : Result :=
  memRead (.trHi2 c) s.cfg.timerHiAddr s fun v t =>
    .next { t with h2 := .written v, ctl := encode (.trCmp c) }

/-- A read completes with the value `v`: in context 0 it also sets `cycle_start` (R103). -/
def completeRead (c : Ctx) (v : U64) (s : State) : State :=
  match c with
  | .startup =>
    { s with now := .written v, trRetries := .written 0, cycleStart := .written v,
             ctl := afterLog s.logQ }
  | .loop => { s with now := .written v, trRetries := .written 0, ctl := encode .envEval }

/-- A failed attempt is discarded and retried from the top (R103; log entry 9). -/
def retryRead (c : Ctx) (s : State) : State :=
  { s with trRetries := s.trRetries.map (· + 1), ctl := encode (.trHi1 c) }

/-- TR_CMP c (R103). -/
def execTrCmp (c : Ctx) (s : State) : Result :=
  needReg s.h1 .h1 fun h1 =>
  needReg s.lo .lo fun lo =>
  needReg s.h2 .h2 fun h2 =>
    if h1 = h2 then .next (completeRead c (timerValue h1 lo) s) else .next (retryRead c s)

end Sys2Proof.Machine
end

