-- ==== Sys2Proof/Machine/Dispatch.lean ====
section
/-!
DEFINITION. exec: one arm per step kind of spec/30_encoding.md R81, each a call of its meaning.
-/

namespace Sys2Proof.Machine

/-- The meaning of every step kind. -/
def exec (i : Instr) (s : State) : Host.Outcome State Fault Refusal :=
  match i with
  | .reset => Sys2Proof.Machine.execReset s
  | .init => Sys2Proof.Machine.execInit s
  | .trHi1 c => Sys2Proof.Machine.execTrHi1 c s
  | .trLo c => Sys2Proof.Machine.execTrLo c s
  | .trHi2 c => Sys2Proof.Machine.execTrHi2 c s
  | .trCmp c => Sys2Proof.Machine.execTrCmp c s
  | .envEval => Sys2Proof.Machine.execEnvEval s
  | .phaseA => Sys2Proof.Machine.execPhaseA s
  | .phaseB => Sys2Proof.Machine.execPhaseB s
  | .gpioSet l => Sys2Proof.Machine.execGpioSet l s
  | .logEmit k => Sys2Proof.Machine.execLogEmit k s

end Sys2Proof.Machine
end

