-- ==== Sys2Proof/Machine/Step.lean ====
section
/-!
DEFINITION. One step of the machine (spec/00_scope.md R13; spec/60_exceptions.md R185, R191), and how the host
places a label where the next step finds it. What a step is made of stands in Machine/Ops.lean.
-/

namespace Sys2Proof.Machine

/-- One step opportunity: RESET, a step of the block, a refused step, or no step at all. -/
def step (s : State) : Host.Outcome State Fault Refusal :=
  match s.select with
  | .run i t => t.settle (exec i t)
  | .reject r t => t.settle (.refused r)
  | .halt (.faulted f) => .fault f
  | .halt (.refused r) => .refused r

/-- `s` with the label `w` where the very next step finds it (log entry 10). -/
def State.withFetchWord (s : State) (_nbits w : Nat) : State := s.placeLabel (BitVec.ofNat 8 w)

end Sys2Proof.Machine
end

