-- ==== Sys2Proof/Safety.lean ====
section
/-!
DEFINITION. What the claims speak of: the invariants of spec/10_state.md R35 to R37 and
spec/41_envelope.md R170 to R173, one attempt of a timer read and its window
(spec/40_timer_reader.md R104, R110, R111), and a run counted in boundary events (R156).
-/

namespace Sys2Proof.Machine

/-- The cell holds a value. -/
def Cell.Holds {α : Type} (c : Cell α) : Prop := ∃ v, c = .written v

/-- The register is unwritten (R12). -/
def State.Lacks (s : State) : RegName → Prop
  | .duty => s.duty = .unwritten
  | .rising => s.rising = .unwritten
  | .cycleCount => s.cycleCount = .unwritten
  | .cycleStart => s.cycleStart = .unwritten
  | .now => s.now = .unwritten
  | .elapsed => s.elapsed = .unwritten
  | .ledOn => s.ledOn = .unwritten
  | .h1 => s.h1 = .unwritten
  | .lo => s.lo = .unwritten
  | .h2 => s.h2 = .unwritten

/-- A fault that the platform's bus raised, and no state of the block did (R181). -/
def Fault.isBusError : Fault → Bool
  | .busError _ _ _ => true
  | .envInvariant _ _ _ => false
  | .unwrittenRead _ => false

/-- The envelope registers are all unwritten (before INIT) or well-formed (R36, R170). -/
def State.EnvSound (s : State) : Prop :=
  (s.duty = .unwritten ∧ s.rising = .unwritten ∧ s.cycleCount = .unwritten) ∨
    ∃ d r cc, s.duty = .written d ∧ s.rising = .written r ∧ s.cycleCount = .written cc ∧
      envWF s.cfg d r cc = true

/-- The block is started: INIT has written its registers, and `EnvWF` holds (R35, R36). -/
def State.Started (s : State) : Prop :=
  (∃ d r cc, s.duty = .written d ∧ s.rising = .written r ∧ s.cycleCount = .written cc ∧
      envWF s.cfg d r cc = true) ∧
    s.ledOn.Holds ∧ s.trRetries.Holds

/-- How one entry of the history changes "the last value written to `a` since the last RESET" (R37). -/
def lastWriteNext (a : Nat) (last : Option U32) : HistEntry → Option U32
  | .wr addr v => if addr = a then some v else last
  | .reset => none
  | .rd _ _ => last
  | .rdError _ => last
  | .wrError _ _ => last
  | .log _ => last

/-- The last value written to GPIO_ADDR since the most recent RESET, if any (R37). -/
def State.lastWrite (s : State) : Option U32 :=
  s.hist.foldl (lastWriteNext s.cfg.gpioAddr) none

/-- The log event of a history entry, if it is one (R43). -/
def HistEntry.event? : HistEntry → Option LogEvent
  | .log ev => some ev
  | .wr _ _ => none
  | .reset => none
  | .rd _ _ => none
  | .rdError _ => none
  | .wrError _ _ => none

/-- `led_on` mirrors the last value the block wrote since RESET, and so does `G` (R28, R37). -/
def State.Mirror (s : State) : Prop :=
  ∀ v, s.lastWrite = some v → ∃ l, s.ledOn = .written l ∧ v = ledWord l ∧ s.gpio = v

/-- Every queued event carries the block's `duty` and `rising`, and there are at most two (R32, R87). -/
def State.QueueSound (s : State) : Prop :=
  s.logQ.length ≤ 2 ∧
    ∀ ev ∈ s.logQ, s.duty = .written ev.duty ∧ s.rising = .written ev.rising

/-- The block stands in a read of context `c`: the start-up read may have the banner queued, the loop
read has `cycle_start` and an empty queue (R104, R130, R153). -/
def State.Reading (c : Ctx) (s : State) : Prop :=
  s.Started ∧
    match c with
    | .startup => s.logQ = [] ∨ s.logQ = [⟨.banner, 0, true⟩]
    | .loop => s.cycleStart.Holds ∧ s.logQ = []

/-- The block stands in the loop after a completed read. -/
def State.Sampled (s : State) : Prop := s.Reading .loop ∧ s.now.Holds

/-- What the step `i` needs when `ctl` names it (R171, R153, R136, R172). -/
def State.Ready (s : State) : Instr → Prop
  | .reset => False
  | .init => s.lastWrite = none
  | .trHi1 c => s.Reading c
  | .trLo c => s.Reading c ∧ s.h1.Holds
  | .trHi2 c => s.Reading c ∧ s.h1.Holds ∧ s.lo.Holds
  | .trCmp c => s.Reading c ∧ s.h1.Holds ∧ s.lo.Holds ∧ s.h2.Holds
  | .envEval => s.Sampled
  | .phaseA => s.Sampled ∧ ∃ e, s.elapsed = .written e ∧ e < s.cfg.pwmPeriod
  | .phaseB => s.Sampled ∧ ∃ e, s.elapsed = .written e ∧ s.cfg.pwmPeriod ≤ e
  | .gpioSet l => s.Reading .loop ∧ s.ledOn = .written (!l)
  | .logEmit k =>
    s.Started ∧ s.cycleStart.Holds ∧ ∃ ev rest, s.logQ = ev :: rest ∧ ev.kind = k ∧
      ∀ e ∈ rest, e.kind ≠ .banner

/-- The invariant of every run from RESET under a well-formed configuration: the control state is
legal and has what its step needs, `EnvWF` holds, the queue is sound, `led_on` mirrors the last
write, and nothing but a bus error has ever stopped the block (R37, R170, R171, R153). -/
structure State.Inv (s : State) : Prop where
  cfgWF : s.cfg.wf = true
  ready : ∃ i, decode s.ctl = .step i ∧ s.Ready i
  queue : s.QueueSound
  mirror : s.Mirror
  notRefused : s.refused = false
  faultsBus : ∀ f ∈ s.faults, f.isBusError = true
  stopBus : ∀ r, s.stop = some r → ∃ f, r = .faulted f ∧ f.isBusError = true

/-- The step graph of R173: what may follow a step that completes. -/
def successors (cfg : Cfg) : Instr → List Instr
  | .reset => [.init]
  | .init =>
    match cfg.initCycleStart with
    | .timerRead => [.trHi1 .startup]
    | .zero => [.logEmit .banner, .trHi1 .loop]
  | .trHi1 c => [.trLo c]
  | .trLo c => [.trHi2 c]
  | .trHi2 c => [.trCmp c]
  | .trCmp .startup => [.trHi1 .startup, .logEmit .banner, .trHi1 .loop]
  | .trCmp .loop => [.trHi1 .loop, .envEval]
  | .envEval => [.phaseA, .phaseB]
  | .phaseA => [.gpioSet false, .gpioSet true, .trHi1 .loop]
  | .phaseB => [.logEmit .status, .logEmit .peak, .logEmit .trough, .trHi1 .loop]
  | .gpioSet _ => [.trHi1 .loop]
  | .logEmit _ => [.logEmit .status, .logEmit .peak, .logEmit .trough, .trHi1 .loop]

/-- One attempt of a read with context `c`, with the states before its four steps and after them,
in which no RESET is asserted and no read is answered with an error (R104). -/
structure Attempt (c : Ctx) (s0 s1 s2 s3 s4 : State) : Prop where
  cfgWF : s0.cfg.wf = true
  running : s0.stop = none
  start : s0.ctl = encode (.trHi1 c)
  step0 : step s0 = .next s1
  step1 : step s1 = .next s2
  step2 : step s2 = .next s3
  step3 : step s3 = .next s4
  noReset : ∀ s ∈ [s0, s1, s2, s3], s.input.reset = false
  noError : ∀ s ∈ [s0, s1, s2], s.input.busError = false

/-- `N3 - N1` of an attempt: what CNT advances before its TR_LO and its TR_HI2 (R110). -/
def attemptWindow (s1 s2 : State) : Nat := s1.input.ticks + s2.input.ticks

/-- A carry in `(a, a + k]` of the unwrapped counter (R110). -/
def CarryIn (a k : Nat) : Prop := a / 2 ^ 32 < (a + k) / 2 ^ 32

/-- A run of steps without RESET from `s` to `t` in which CNT advances by `k` ticks in all (R40, R114). -/
inductive Elapses : Nat → State → State → Prop where
  | refl (s : State) : Elapses 0 s s
  | tick {k : Nat} {s t u : State} : Elapses k s t → t.input.reset = false → step t = .next u →
      Elapses (k + t.input.ticks) s u

/-- The envelope registers `(duty, rising, cycle_count)` hold these values. -/
def State.Envelope (s : State) (e : U32 × Bool × U32) : Prop :=
  s.duty = .written e.1 ∧ s.rising = .written e.2.1 ∧ s.cycleCount = .written e.2.2

/-- A run of steps without RESET or INIT from `s` to `t` in which exactly `n` boundary events happen:
a boundary event is one execution of PHASE_B (spec/00_scope.md, section 5; R156). -/
inductive Boundaries : Nat → State → State → Prop where
  | refl (s : State) : Boundaries 0 s s
  | other {n : Nat} {s t u : State} : Boundaries n s t → t.input.reset = false →
      t.ctl ≠ encode .phaseB → t.ctl ≠ encode .init → step t = .next u → Boundaries n s u
  | boundary {n : Nat} {s t u : State} : Boundaries n s t → t.input.reset = false →
      t.ctl = encode .phaseB → step t = .next u → u.stop = none → Boundaries (n + 1) s u

end Sys2Proof.Machine
end

