-- ==== Sys2Proof/Certificates/Slice0/Obligations.lean ====
section
/-!
DEFINITION. The statements for the provers. Each docstring names the rule of spec/ it formalises.
The environment's choices (`s.input`) are universally quantified with the state that holds them.
-/

open Sys2Proof Sys2Proof.Machine

/-! ## Encoding -/

/-- spec/30_encoding.md R81, R82, R84: the label of a step decodes to that step. -/
def Obligations.LabelDecodesToItsStep : Prop := ∀ i : Instr, decode (encode i) = .step i

/-- spec/30_encoding.md R81, R84: a byte that decodes to a step is that step's one label. -/
def Obligations.DecodedStepHasThatLabel : Prop :=
  ∀ (w : Label) (i : Instr), decode w = .step i → encode i = w

/-- spec/30_encoding.md R83: the labels the decoder rejects are the reserved ones, 237 of the 256
bytes. -/
def Obligations.RejectedLabelsAreTheReservedOnes : Prop :=
  (∀ w : Label, (∃ why, decode w = .reserved why) ↔ reservedLabel w = true) ∧
    ((List.range 256).filter fun n => reservedLabel (BitVec.ofNat 8 n)).length = 237

/-- spec/30_encoding.md R81: label bytes written out from the label map. -/
def Obligations.HandWrittenLabelsDecode : Prop :=
  decode 0b00000000 = .step .reset ∧ decode 0b00010000 = .step .init ∧
  decode 0b00100001 = .step (.trHi1 .loop) ∧ decode 0b00110000 = .step (.trLo .startup) ∧
  decode 0b01000001 = .step (.trHi2 .loop) ∧ decode 0b01010000 = .step (.trCmp .startup) ∧
  decode 0b01100000 = .step .envEval ∧ decode 0b01110000 = .step .phaseA ∧
  decode 0b10000000 = .step .phaseB ∧ decode 0b10010001 = .step (.gpioSet true) ∧
  decode 0b10100011 = .step (.logEmit .trough) ∧ (∃ why, decode 0b10110000 = .reserved why)

/-- spec/30_encoding.md R86: `v = (zext_64(h1) << 32) | zext_64(lo)`, so `v[63:32] = h1` and
`v[31:0] = lo`. -/
def Obligations.TimerValueHasBothHalves : Prop :=
  ∀ h1 lo : U32, timerValue h1 lo = (h1.setWidth 64 <<< 32 ||| lo.setWidth 64) ∧
    highHalf (timerValue h1 lo) = h1 ∧ lowHalf (timerValue h1 lo) = lo ∧
    (timerValue h1 lo).toNat = h1.toNat * 2 ^ 32 + lo.toNat

/-- spec/30_encoding.md R88: the GPIO word of a level is 1 or 0, bits 31..1 always 0. -/
def Obligations.LedWordIsZeroOrOne : Prop :=
  ledWord true = 0x00000001 ∧ ledWord false = 0x00000000 ∧
    ∀ (l : Bool) (n : Nat), 1 ≤ n → (ledWord l).getLsbD n = false

/-! ## The machine's step -/

/-- spec/10_state.md R31, R40: a running block runs the step whose label `ctl` holds, on the state in
which CNT has advanced; the step uses up one input, and a fault or refusal is recorded. -/
def Obligations.StepRunsTheLabelInCtl : Prop :=
  ∀ (s : State) (i : Instr), s.cfg.wf = true → s.input.reset = false → s.stop = none →
    decode s.ctl = .step i → i ≠ .reset →
    (∀ t, exec i s.advanceCnt = .next t → step s = .next t.consume) ∧
    (∀ f, exec i s.advanceCnt = .fault f → step s = .next (s.advanceCnt.recordFault f).consume) ∧
    (∀ r, exec i s.advanceCnt = .refused r → step s = .next (s.advanceCnt.recordRefusal r).consume)

/-- spec/70_reset_and_hazards.md R200, spec/60_exceptions.md R191: RESET from any state, whatever `ctl`
holds and whether the block holds or has stopped; CNT, GPIO, LOG and the sticky records stay. The
model's choices are that a step uses up one record of the environment's choices (`env`, `draws`: log
entry 3) and that RESET ends the stop of a fault (log entry 2) and of a refusal (log entry 6). -/
def Obligations.ResetResult : Prop :=
  encode .reset = 0b00000000 ∧ ∀ s : State,
    exec .reset s = .next
      { s with
        ctl := 0x10, duty := .unwritten, rising := .unwritten, cycleCount := .unwritten
        cycleStart := .unwritten, now := .unwritten, elapsed := .unwritten, ledOn := .unwritten
        h1 := .unwritten, lo := .unwritten, h2 := .unwritten, trRetries := .unwritten
        logQ := [], hist := s.hist ++ [.reset], stop := none } ∧
    (s.cfg.wf = true → s.input.reset = true →
      step s = .next
        { s with
          ctl := 0x10, duty := .unwritten, rising := .unwritten, cycleCount := .unwritten
          cycleStart := .unwritten, now := .unwritten, elapsed := .unwritten, ledOn := .unwritten
          h1 := .unwritten, lo := .unwritten, h2 := .unwritten, trRetries := .unwritten
          logQ := [], hist := s.hist ++ [.reset], stop := none
          env := s.env.tail, draws := s.draws + 1 })

/-- spec/10_state.md section 5: what RESET leaves at the start of a run, for any configuration and
any `C` and `G`; that `State.reset` takes `C = 0`, `G = 0` is the model's choice (log entry 5). -/
def Obligations.ResetStateValues : Prop :=
  (∀ (cfg : Cfg) (c : U64) (g : U32),
    let s := State.powerOn cfg c g
    decode s.ctl = .step .init ∧ s.duty = .unwritten ∧ s.rising = .unwritten ∧
    s.cycleCount = .unwritten ∧ s.cycleStart = .unwritten ∧ s.now = .unwritten ∧
    s.elapsed = .unwritten ∧ s.ledOn = .unwritten ∧ s.h1 = .unwritten ∧ s.lo = .unwritten ∧
    s.h2 = .unwritten ∧ s.trRetries = .unwritten ∧ s.logQ = [] ∧ s.hist = [.reset] ∧
    s.cnt = c ∧ s.gpio = g ∧ s.cfg = cfg ∧ s.faults = [] ∧ s.refused = false) ∧
  State.reset = State.powerOn Cfg.standard 0 0 ∧ Cfg.standard.wf = true

/-- spec/60_exceptions.md R186: an ill-formed configuration has no step, not even RESET. -/
def Obligations.IllFormedConfigHasNoStep : Prop :=
  ∀ s : State, s.cfg.wf = false → step s = .refused .configIllFormed

/-- spec/00_scope.md R8: the well-formed configurations. -/
def Obligations.ConfigWellFormedIff : Prop :=
  ∀ c : Cfg, c.wf = true ↔
    (1 ≤ c.pwmPeriod.toNat ∧ 1 ≤ c.dutySteps.toNat ∧ 1 ≤ c.cyclesPerStep.toNat) ∧
    c.pwmPeriod.toNat * c.dutySteps.toNat ≤ 2 ^ 64 - 1 ∧
    (4 ∣ c.timerLoAddr ∧ 4 ∣ c.timerHiAddr ∧ 4 ∣ c.gpioAddr) ∧
    (c.timerLoAddr ≠ c.timerHiAddr ∧ c.timerLoAddr ≠ c.gpioAddr ∧ c.timerHiAddr ≠ c.gpioAddr) ∧
    (c.timerLoAddr < 2 ^ c.addrW ∧ c.timerHiAddr < 2 ^ c.addrW ∧ c.gpioAddr < 2 ^ c.addrW)

/-- spec/60_exceptions.md R187, spec/30_encoding.md R83: a reserved label or RESET in `ctl` is refused,
with the sticky mark and no write of the block. The model's choices are the stop, and that the refused
step is a next state (log entry 6), and the used record of choices, `env` and `draws` (log entry 3). -/
def Obligations.ReservedLabelIsRefused : Prop :=
  ∀ s : State, s.cfg.wf = true → s.input.reset = false → s.stop = none →
    (reservedLabel s.ctl = true ∨ s.ctl = encode .reset) →
    step s = .next
      { s with
        cnt := s.cnt + BitVec.ofNat 64 s.input.ticks
        refused := true, stop := some (.refused (.reservedLabel s.ctl))
        env := s.env.tail, draws := s.draws + 1 }

/-- spec/60_exceptions.md R180, R190, spec/20_memory.md R69: a fault makes no write but the fault record,
which stops the block, and the history entry of a bus error, written out for each fault. The model's
choices are that the stopped block is a next state (log entry 2), the used record of choices, `env` and
`draws` (log entry 3), and that R69's entry stands beside R180's record (log entry 15). -/
def Obligations.FaultWritesOnlyTheRecord : Prop :=
  ∀ (s : State) (i : Instr) (f : Fault), s.cfg.wf = true → s.input.reset = false →
    s.stop = none → decode s.ctl = .step i → i ≠ .reset → exec i s.advanceCnt = .fault f →
    step s = .next
      { s with
        cnt := s.cnt + BitVec.ofNat 64 s.input.ticks
        faults := s.faults ++ [f], stop := some (.faulted f)
        hist := s.hist ++ match f with
          | .busError _ a none => [.rdError a]
          | .busError _ a (some v) => [.wrError a v]
          | .envInvariant _ _ _ => []
          | .unwrittenRead _ => []
        env := s.env.tail, draws := s.draws + 1 }

/-- spec/60_exceptions.md R180, R191: once stopped, the block has no further step until RESET. -/
def Obligations.StoppedBlockHasNoStepUntilReset : Prop :=
  ∀ s : State, s.cfg.wf = true →
    (∀ f, s.stop = some (.faulted f) → s.input.reset = false → step s = .fault f) ∧
    (∀ r, s.stop = some (.refused r) → s.input.reset = false → step s = .refused r) ∧
    (s.input.reset = true → ∃ t, step s = .next t ∧ t.stop = none ∧ t.ctl = encode .init ∧
      t.faults = s.faults ∧ t.refused = s.refused)

/-- spec/60_exceptions.md R181, spec/20_memory.md R69: a bus error on the access of a step faults
`BusError` with the step label, the address and, for a write, the data; nothing else does. -/
def Obligations.BusErrorFaultsWithItsRecord : Prop :=
  (∀ (s : State), s.input.busError = true →
    (∀ c, exec (.trHi1 c) s = .fault (.busError (encode (.trHi1 c)) s.cfg.timerHiAddr none)) ∧
    (∀ c, exec (.trLo c) s = .fault (.busError (encode (.trLo c)) s.cfg.timerLoAddr none)) ∧
    (∀ c, exec (.trHi2 c) s = .fault (.busError (encode (.trHi2 c)) s.cfg.timerHiAddr none)) ∧
    (∀ l, exec (.gpioSet l) s =
      .fault (.busError (encode (.gpioSet l)) s.cfg.gpioAddr (some (ledWord l))))) ∧
  ∀ (i : Instr) (s : State) (w : Label) (a : Nat) (d : Option U32), s.cfg.wf = true →
    exec i s = .fault (.busError w a d) → s.input.busError = true ∧ w = encode i

/-- spec/60_exceptions.md R180, R187: the fault record and the refusal mark are sticky. That a faulting
or refused step is a next state is the model's (log entries 2 and 6). -/
def Obligations.FaultAndRefusalRecordsAreSticky : Prop :=
  ∀ s t : State, step s = .next t →
    (∃ fs, t.faults = s.faults ++ fs ∧ fs.length ≤ 1) ∧ (s.refused = true → t.refused = true)

/-- spec/00_scope.md R6, spec/20_memory.md R57, spec/10_state.md R43: a step appends at most one entry to the
history and changes none. -/
def Obligations.StepRecordsAtMostOneEvent : Prop :=
  ∀ s t : State, step s = .next t → ∃ es, t.hist = s.hist ++ es ∧ es.length ≤ 1

/-- spec/10_state.md R20: no step writes the configuration. -/
def Obligations.NoStepWritesTheConfiguration : Prop :=
  ∀ s t : State, step s = .next t → t.cfg = s.cfg

/-- spec/10_state.md R38, R40: no step kind writes `C`, and a step of the machine changes it only by
the drawn advance, which RESET leaves out. -/
def Obligations.CounterChangesOnlyByItsAdvance : Prop :=
  (∀ (i : Instr) (s t : State), exec i s = .next t → t.cnt = s.cnt) ∧
    ∀ s t : State, step s = .next t →
      t.cnt = if s.input.reset then s.cnt else s.cnt + BitVec.ofNat 64 s.input.ticks

/-- spec/30_encoding.md R83: no step ever writes a reserved label or RESET into `ctl`. -/
def Obligations.NoStepWritesAReservedLabel : Prop :=
  ∀ (i : Instr) (s t : State), exec i s = .next t →
    (t = s ∧ ∃ k, i = .logEmit k) ∨ ∃ j, t.ctl = encode j ∧ j ≠ .reset

/-! ## Timer Reader -/

/-- spec/40_timer_reader.md R100: the label, the read of the high half, and the bus error. -/
def Obligations.TrHi1Result : Prop :=
  (encode (.trHi1 .startup) = 0b00100000 ∧ encode (.trHi1 .loop) = 0b00100001) ∧
  ∀ (c : Ctx) (s : State),
    (s.input.busError = false →
      exec (.trHi1 c) s = .next
        { s with
          h1 := .written (s.cnt.extractLsb' 32 32), ctl := encode (.trLo c)
          hist := s.hist ++ [.rd s.cfg.timerHiAddr (s.cnt.extractLsb' 32 32)] }) ∧
    (s.input.busError = true →
      exec (.trHi1 c) s = .fault (.busError (encode (.trHi1 c)) s.cfg.timerHiAddr none))

/-- spec/40_timer_reader.md R101: the label, the read of the low half, and the bus error, under a
well-formed address map (R8). -/
def Obligations.TrLoResult : Prop :=
  (encode (.trLo .startup) = 0b00110000 ∧ encode (.trLo .loop) = 0b00110001) ∧
  ∀ (c : Ctx) (s : State), s.cfg.wf = true →
    (s.input.busError = false →
      exec (.trLo c) s = .next
        { s with
          lo := .written (s.cnt.extractLsb' 0 32), ctl := encode (.trHi2 c)
          hist := s.hist ++ [.rd s.cfg.timerLoAddr (s.cnt.extractLsb' 0 32)] }) ∧
    (s.input.busError = true →
      exec (.trLo c) s = .fault (.busError (encode (.trLo c)) s.cfg.timerLoAddr none))

/-- spec/40_timer_reader.md R102: the label, the second read of the high half, and the bus error. -/
def Obligations.TrHi2Result : Prop :=
  (encode (.trHi2 .startup) = 0b01000000 ∧ encode (.trHi2 .loop) = 0b01000001) ∧
  ∀ (c : Ctx) (s : State),
    (s.input.busError = false →
      exec (.trHi2 c) s = .next
        { s with
          h2 := .written (s.cnt.extractLsb' 32 32), ctl := encode (.trCmp c)
          hist := s.hist ++ [.rd s.cfg.timerHiAddr (s.cnt.extractLsb' 32 32)] }) ∧
    (s.input.busError = true →
      exec (.trHi2 c) s = .fault (.busError (encode (.trHi2 c)) s.cfg.timerHiAddr none))

/-- spec/40_timer_reader.md R103: the label, the consistent pair in each context, the retry, and the
fault on an unwritten latch. -/
def Obligations.TrCmpResult : Prop :=
  (encode (.trCmp .startup) = 0b01010000 ∧ encode (.trCmp .loop) = 0b01010001) ∧
  ∀ (c : Ctx) (s : State),
    (∀ h lo, s.h1 = .written h → s.lo = .written lo → s.h2 = .written h →
      (c = .startup → s.logQ = [] → exec (.trCmp c) s = .next
        { s with now := .written (timerValue h lo), trRetries := .written 0
                 cycleStart := .written (timerValue h lo), ctl := encode (.trHi1 .loop) }) ∧
      (c = .startup → ∀ ev rest, s.logQ = ev :: rest → exec (.trCmp c) s = .next
        { s with now := .written (timerValue h lo), trRetries := .written 0
                 cycleStart := .written (timerValue h lo), ctl := encode (.logEmit ev.kind) }) ∧
      (c = .loop → exec (.trCmp c) s = .next
        { s with now := .written (timerValue h lo), trRetries := .written 0
                 ctl := encode .envEval })) ∧
    (∀ a lo b n, s.h1 = .written a → s.lo = .written lo → s.h2 = .written b → a ≠ b →
      s.trRetries = .written n → exec (.trCmp c) s = .next
        { s with trRetries := .written (n + 1), ctl := encode (.trHi1 c) }) ∧
    ((s.Lacks .h1 ∨ s.Lacks .lo ∨ s.Lacks .h2) →
      ∃ r ∈ [RegName.h1, .lo, .h2], s.Lacks r ∧ exec (.trCmp c) s = .fault (.unwrittenRead r))

/-- spec/10_state.md R30: no step's behaviour depends on the ghost `tr_retries`, so a failed comparison
retries whether it holds a value or not; that an unwritten one stays so is the model's (log entry 9). -/
def Obligations.RetryNeedsNoGhostCount : Prop :=
  ∀ (c : Ctx) (s : State) (a lo b : U32), s.h1 = .written a → s.lo = .written lo →
    s.h2 = .written b → a ≠ b →
    (s.trRetries = .unwritten →
      exec (.trCmp c) s = .next { s with ctl := encode (.trHi1 c) }) ∧
    ∃ n, exec (.trCmp c) s = .next { s with trRetries := n, ctl := encode (.trHi1 c) }

/-- spec/40_timer_reader.md R106: a read writes only the latches, `now` and `tr_retries` at its last
step, `cycle_start` there in context 0, `ctl`, and the record of its accesses. -/
def Obligations.TimerReadFrame : Prop :=
  ∀ (c : Ctx) (i : Instr) (s t : State),
    i ∈ [Instr.trHi1 c, .trLo c, .trHi2 c, .trCmp c] → exec i s = .next t →
    t = { s with
          h1 := t.h1, lo := t.lo, h2 := t.h2, now := t.now, trRetries := t.trRetries
          cycleStart := t.cycleStart, ctl := t.ctl, hist := t.hist } ∧
    (i ≠ .trHi1 c → t.h1 = s.h1) ∧ (i ≠ .trLo c → t.lo = s.lo) ∧ (i ≠ .trHi2 c → t.h2 = s.h2) ∧
    (i ≠ .trCmp c → t.now = s.now ∧ t.trRetries = s.trRetries) ∧
    (i ≠ .trCmp .startup → t.cycleStart = s.cycleStart) ∧
    (i = .trCmp c → t.hist = s.hist) ∧
    (∀ a, t.present a = s.present a)

/-- spec/40_timer_reader.md R105: the three accesses of an attempt are high, low, high, each the half
of `C` at its own step. -/
def Obligations.AttemptReadsHighLowHigh : Prop :=
  ∀ (c : Ctx) (s0 s1 s2 s3 s4 : State), Attempt c s0 s1 s2 s3 s4 →
    s4.hist = s0.hist ++ [.rd s0.cfg.timerHiAddr (highHalf s1.cnt),
      .rd s0.cfg.timerLoAddr (lowHalf s2.cnt), .rd s0.cfg.timerHiAddr (highHalf s3.cnt)] ∧
    s3.h1 = .written (highHalf s1.cnt) ∧ s3.lo = .written (lowHalf s2.cnt) ∧
    s3.h2 = .written (highHalf s3.cnt) ∧ s3.ctl = encode (.trCmp c)

/-- spec/40_timer_reader.md R110: a successful comparison with a window of at most `2^64 - 2^32`
ticks returns `C` as it was at TR_LO; a failed comparison implies a carry in the window. -/
def Obligations.ConsistentTimerRead : Prop :=
  ∀ (c : Ctx) (s0 s1 s2 s3 s4 : State), Attempt c s0 s1 s2 s3 s4 →
    (s3.h1 = s3.h2 → attemptWindow s1 s2 ≤ 2 ^ 64 - 2 ^ 32 →
      s4.now = .written s2.cnt ∧ (c = .startup → s4.cycleStart = .written s2.cnt)) ∧
    (s3.h1 ≠ s3.h2 → CarryIn s1.cnt.toNat (attemptWindow s1 s2))

/-- spec/40_timer_reader.md R110, R113: within a window shorter than `2^32` ticks an attempt is
retried exactly when the counter carries, the wrap at `2^64` included; then `now` is kept. -/
def Obligations.RetryExactlyOnACarry : Prop :=
  ∀ (c : Ctx) (s0 s1 s2 s3 s4 : State), Attempt c s0 s1 s2 s3 s4 →
    attemptWindow s1 s2 < 2 ^ 32 →
    ((s4.ctl = encode (.trHi1 c) ∧ s4.now = s0.now ∧ s3.h1 ≠ s3.h2) ↔
      CarryIn s1.cnt.toNat (attemptWindow s1 s2))

/-- spec/40_timer_reader.md R112: under ENV3(b) the attempt after a failed one succeeds, so a read
takes at most two attempts and `tr_retries` is 1 before the successful comparison. -/
def Obligations.SecondAttemptSucceeds : Prop :=
  ∀ (c : Ctx) (a0 a1 a2 a3 a4 b1 b2 b3 b4 : State),
    Attempt c a0 a1 a2 a3 a4 → Attempt c a4 b1 b2 b3 b4 → a3.h1 ≠ a3.h2 →
    a1.input.ticks + a2.input.ticks + a3.input.ticks + a4.input.ticks + b1.input.ticks +
      b2.input.ticks < 2 ^ 32 →
    b3.h1 = b3.h2 ∧ b4.now = .written b2.cnt ∧
      (a0.trRetries = .written 0 → b3.trRetries = .written 1) ∧ b4.trRetries = .written 0

/-- spec/40_timer_reader.md R114: of two successful reads under R110's premise, the later value is the
earlier one plus the ticks CNT advanced between their TR_LO steps, mod 2^64, so it is no smaller
unless `C` wrapped in between. -/
def Obligations.TimerReadsAreMonotonic : Prop :=
  ∀ (c d : Ctx) (a0 a1 a2 a3 a4 b0 b1 b2 b3 b4 : State) (k : Nat),
    Attempt c a0 a1 a2 a3 a4 → Attempt d b0 b1 b2 b3 b4 → Elapses k a2 b2 →
    a3.h1 = a3.h2 → b3.h1 = b3.h2 →
    attemptWindow a1 a2 < 2 ^ 32 → attemptWindow b1 b2 < 2 ^ 32 →
    ∃ v1 v2 : U64, a4.now = .written v1 ∧ b4.now = .written v2 ∧
      v2 - v1 = BitVec.ofNat 64 k ∧ (v1.toNat + k < 2 ^ 64 → v1 ≤ v2)

/-! ## Envelope -/

/-- spec/41_envelope.md R130, the banner a drawn choice. -/
def Obligations.InitResult : Prop :=
  encode .init = 0b00010000 ∧ ∀ s : State,
    let q : List LogEvent := if s.input.banner then [⟨.banner, 0, true⟩] else []
    (s.cfg.initCycleStart = .timerRead → exec .init s = .next
      { s with
        duty := .written 0, rising := .written true, cycleCount := .written 0
        ledOn := .written false, trRetries := .written 0, logQ := q
        ctl := encode (.trHi1 .startup) }) ∧
    (s.cfg.initCycleStart = .zero → exec .init s = .next
      { s with
        duty := .written 0, rising := .written true, cycleCount := .written 0
        ledOn := .written false, trRetries := .written 0, logQ := q, cycleStart := .written 0
        ctl := if s.input.banner then encode (.logEmit .banner) else encode (.trHi1 .loop) })

/-- spec/41_envelope.md R135: the wrapping subtraction, the choice of the phase, and the fault on an
unwritten operand. -/
def Obligations.EnvEvalResult : Prop :=
  encode .envEval = 0b01100000 ∧ ∀ s : State,
    (∀ now start, s.now = .written now → s.cycleStart = .written start →
      exec .envEval s = .next
        { s with
          elapsed := .written (now - start)
          ctl := if s.cfg.pwmPeriod.toNat ≤ (now - start).toNat then encode .phaseB
                 else encode .phaseA }) ∧
    ((s.Lacks .now ∨ s.Lacks .cycleStart) →
      ∃ r ∈ [RegName.now, .cycleStart], s.Lacks r ∧ exec .envEval s = .fault (.unwrittenRead r))

/-- spec/41_envelope.md R136: an iteration goes to Phase A only when `elapsed < PWM_PERIOD`. -/
def Obligations.PhaseAOnlyWithinThePeriod : Prop :=
  ∀ (i : Instr) (s t : State), exec i s = .next t → t.ctl = encode .phaseA → t ≠ s →
    i = .envEval ∧ ∃ e, t.elapsed = .written e ∧ e < t.cfg.pwmPeriod

/-- spec/10_state.md R36: `EnvWF`. -/
def Obligations.EnvelopeWellFormedIff : Prop :=
  ∀ (cfg : Cfg) (duty : U32) (rising : Bool) (cc : U32),
    envWF cfg duty rising cc = true ↔
      duty ≤ cfg.dutySteps ∧ cc < cfg.cyclesPerStep ∧
      (rising = true → duty < cfg.dutySteps) ∧ (rising = false → 0 < duty)

/-- spec/41_envelope.md R140: the level, the choice of the next step, and the two faults. -/
def Obligations.PhaseAResult : Prop :=
  encode .phaseA = 0b01110000 ∧ ∀ s : State,
    (∀ d e l r cc, s.duty = .written d → s.elapsed = .written e → s.ledOn = .written l →
      s.rising = .written r → s.cycleCount = .written cc →
      let onTime := s.cfg.pwmPeriod.toNat * d.toNat / s.cfg.dutySteps.toNat
      let desired : Bool := decide (e.toNat < onTime)
      (envWF s.cfg d r cc = true → desired ≠ l →
        exec .phaseA s = .next { s with ctl := encode (.gpioSet desired) }) ∧
      (envWF s.cfg d r cc = true → desired = l →
        exec .phaseA s = .next { s with ctl := encode (.trHi1 .loop) }) ∧
      (envWF s.cfg d r cc = false → exec .phaseA s = .fault (.envInvariant d r cc))) ∧
    ((s.Lacks .duty ∨ s.Lacks .elapsed ∨ s.Lacks .ledOn) →
      ∃ r ∈ [RegName.duty, .elapsed, .ledOn],
        s.Lacks r ∧ exec .phaseA s = .fault (.unwrittenRead r))

/-- spec/00_scope.md R12, spec/10_state.md R36: PHASE_A reads `rising` and `cycle_count` too, for
`EnvWF`, and faults when one is unwritten; the reading is the model's (log entry 8). -/
def Obligations.PhaseANeedsTheWholeEnvelope : Prop :=
  ∀ s : State, s.duty.Holds → s.elapsed.Holds → s.ledOn.Holds →
    (s.Lacks .rising ∨ s.Lacks .cycleCount) →
    ∃ r ∈ [RegName.rising, .cycleCount],
      s.Lacks r ∧ exec .phaseA s = .fault (.unwrittenRead r)

/-- spec/41_envelope.md R142: the bounds of `on_ticks` under a well-formed configuration. -/
def Obligations.OnTicksBounds : Prop :=
  ∀ (cfg : Cfg) (d : U32), cfg.wf = true → d ≤ cfg.dutySteps →
    onTicks cfg d = cfg.pwmPeriod.toNat * d.toNat / cfg.dutySteps.toNat ∧
    onTicks cfg d ≤ cfg.pwmPeriod.toNat ∧
    (onTicks cfg d = 0 ↔ cfg.pwmPeriod.toNat * d.toNat < cfg.dutySteps.toNat) ∧
    (onTicks cfg d = cfg.pwmPeriod.toNat ↔ d = cfg.dutySteps) ∧
    (∀ d' : U32, d ≤ d' → onTicks cfg d ≤ onTicks cfg d') ∧
    cfg.pwmPeriod.toNat * d.toNat ≤ 2 ^ 64 - 1

/-- spec/41_envelope.md R143, R144: for a fixed `duty` the desired level only falls as `elapsed`
grows; at `duty = 0` it is off, and at DUTY_STEPS it is on within the period. -/
def Obligations.DesiredLevelFallsOnce : Prop :=
  ∀ (cfg : Cfg) (d : U32) (e e' : U64),
    (e ≤ e' → desiredLevel cfg d e' = true → desiredLevel cfg d e = true) ∧
    desiredLevel cfg 0 e = false ∧
    (cfg.wf = true → e < cfg.pwmPeriod → desiredLevel cfg cfg.dutySteps e = true)

/-- spec/41_envelope.md R145: the full-word write at GPIO_ADDR and `led_on`, in one step. -/
def Obligations.GpioSetResult : Prop :=
  (encode (.gpioSet false) = 0b10010000 ∧ encode (.gpioSet true) = 0b10010001) ∧
  ∀ (l : Bool) (s : State),
    let w : U32 := if l then 1 else 0
    (s.input.busError = false → exec (.gpioSet l) s = .next
      { s with
        gpio := w, ledOn := .written l, ctl := encode (.trHi1 .loop)
        hist := s.hist ++ [.wr s.cfg.gpioAddr w] }) ∧
    (s.input.busError = true →
      exec (.gpioSet l) s = .fault (.busError (encode (.gpioSet l)) s.cfg.gpioAddr (some w)))

/-- spec/41_envelope.md R141: only GPIO_SET writes the GPIO register, so INIT and Phase B never do;
no step writes a timer half (spec/20_memory.md R56). -/
def Obligations.OnlyGpioSetWritesTheGpioRegister : Prop :=
  ∀ (i : Instr) (s t : State), exec i s = .next t → (∀ l, i ≠ .gpioSet l) →
    t.gpio = s.gpio ∧ ∃ es, t.hist = s.hist ++ es ∧ ∀ e ∈ es, ∀ a v, e ≠ .wr a v

/-- spec/41_envelope.md R141: GPIO_SET is entered only from a PHASE_A whose desired level differs
from `led_on`. -/
def Obligations.GpioSetIsEnteredOnlyOnAChange : Prop :=
  ∀ (i : Instr) (s t : State) (l : Bool), exec i s = .next t → t.ctl = encode (.gpioSet l) →
    t ≠ s → i = .phaseA ∧ s.ledOn = .written (!l) ∧
      ∃ d e, s.duty = .written d ∧ s.elapsed = .written e ∧ desiredLevel s.cfg d e = l

/-- spec/41_envelope.md R172: after the first write since RESET, every GPIO_SET changes `G`. -/
def Obligations.NoRedundantGpioWrite : Prop :=
  ∀ (s t : State) (l : Bool) (v : U32), s.Inv → s.lastWrite = some v →
    s.ctl = encode (.gpioSet l) → s.stop = none → s.input.reset = false →
    s.input.busError = false → step s = .next t → t.gpio = ledWord l ∧ t.gpio ≠ s.gpio

/-- spec/41_envelope.md R150: the boundary event, by its five cases, and its two faults. -/
def Obligations.PhaseBResult : Prop :=
  encode .phaseB = 0b10000000 ∧ ∀ s : State,
    (∀ now cc d r, s.now = .written now → s.cycleCount = .written cc → s.duty = .written d →
      s.rising = .written r →
      let evs : List LogKind → List LogKind := fun flips =>
        let ks := flips ++ (if s.input.status then [.status] else [])
        if s.input.swap then ks.reverse else ks
      let queue : List LogKind → U32 → Bool → List LogEvent := fun flips d' r' =>
        (evs flips).map fun k => ⟨k, d', r'⟩
      let after : U32 → U32 → Bool → List LogKind → State := fun cc' d' r' flips =>
        { s with
          cycleStart := .written now, cycleCount := .written cc', duty := .written d'
          rising := .written r', logQ := queue flips d' r', ctl := afterLog (queue flips d' r') }
      (envWF s.cfg d r cc = false → exec .phaseB s = .fault (.envInvariant d r cc)) ∧
      (envWF s.cfg d r cc = true → cc.toNat + 1 < s.cfg.cyclesPerStep.toNat →
        exec .phaseB s = .next (after (cc + 1) d r [])) ∧
      (envWF s.cfg d r cc = true → s.cfg.cyclesPerStep.toNat ≤ cc.toNat + 1 → r = true →
        d.toNat + 1 < s.cfg.dutySteps.toNat →
        exec .phaseB s = .next (after 0 (d + 1) true [])) ∧
      (envWF s.cfg d r cc = true → s.cfg.cyclesPerStep.toNat ≤ cc.toNat + 1 → r = true →
        s.cfg.dutySteps.toNat ≤ d.toNat + 1 →
        exec .phaseB s = .next (after 0 (d + 1) false [.peak])) ∧
      (envWF s.cfg d r cc = true → s.cfg.cyclesPerStep.toNat ≤ cc.toNat + 1 → r = false →
        d.toNat ≠ 1 → exec .phaseB s = .next (after 0 (d - 1) false [])) ∧
      (envWF s.cfg d r cc = true → s.cfg.cyclesPerStep.toNat ≤ cc.toNat + 1 → r = false →
        d.toNat = 1 → exec .phaseB s = .next (after 0 (d - 1) true [.trough]))) ∧
    ((s.Lacks .now ∨ s.Lacks .cycleCount ∨ s.Lacks .duty ∨ s.Lacks .rising) →
      ∃ r ∈ [RegName.now, .cycleCount, .duty, .rising],
        s.Lacks r ∧ exec .phaseB s = .fault (.unwrittenRead r))

/-- spec/41_envelope.md R153, spec/30_encoding.md R87: one boundary queues at most two events, PEAK or TROUGH
exactly on a flip, STATUS exactly when drawn, each with the new `duty` and `rising`. -/
def Obligations.BoundaryQueuesItsEvents : Prop :=
  ∀ s t : State, exec .phaseB s = .next t →
    t.logQ.length ≤ 2 ∧
    (LogKind.peak ∈ t.logQ.map LogEvent.kind ↔
      s.rising = .written true ∧ t.rising = .written false) ∧
    (LogKind.trough ∈ t.logQ.map LogEvent.kind ↔
      s.rising = .written false ∧ t.rising = .written true) ∧
    (LogKind.status ∈ t.logQ.map LogEvent.kind ↔ s.input.status = true) ∧
    LogKind.banner ∉ t.logQ.map LogEvent.kind ∧ (t.logQ.map LogEvent.kind).Nodup ∧
    ∀ ev ∈ t.logQ, t.duty = .written ev.duty ∧ t.rising = .written ev.rising

/-- spec/41_envelope.md R151: but for INIT and RESET, `duty` changes only in a PHASE_B whose
incremented count reaches CYCLES_PER_STEP, and by exactly one. -/
def Obligations.DutyChangesOnlyInADutyStep : Prop :=
  ∀ (i : Instr) (s t : State), exec i s = .next t → i ≠ .init → i ≠ .reset → t.duty ≠ s.duty →
    i = .phaseB ∧ ∃ d d' cc, s.duty = .written d ∧ t.duty = .written d' ∧
      s.cycleCount = .written cc ∧ cc.toNat + 1 = s.cfg.cyclesPerStep.toNat ∧
      ((s.rising = .written true ∧ d'.toNat = d.toNat + 1) ∨
        (s.rising = .written false ∧ d'.toNat + 1 = d.toNat))

/-- spec/41_envelope.md R152: `rising` changes exactly at the duty steps that reach the extremes. -/
def Obligations.DirectionFlipsExactlyAtTheExtremes : Prop :=
  (∀ (s t : State) (d d' : U32) (r r' : Bool), exec .phaseB s = .next t →
    s.duty = .written d → s.rising = .written r → t.duty = .written d' → t.rising = .written r' →
    (r = true → (r' = false ↔ d' = s.cfg.dutySteps ∧ d' ≠ d)) ∧
    (r = false → (r' = true ↔ d' = 0 ∧ d' ≠ d))) ∧
  ∀ (i : Instr) (s t : State), exec i s = .next t → i ≠ .phaseB → i ≠ .init → i ≠ .reset →
    t.rising = s.rising

/-- spec/41_envelope.md R155: from a well-formed level just reached, `duty` and `rising` hold for the
boundary events before the CYCLES_PER_STEP-th, which changes `duty`, at the extremes too. -/
def Obligations.EveryLevelDwellsForItsCycles : Prop :=
  ∀ (n : Nat) (s t : State) (d : U32) (r : Bool), s.cfg.wf = true → s.Envelope (d, r, 0) →
    envWF s.cfg d r 0 = true → Boundaries n s t →
    (n < s.cfg.cyclesPerStep.toNat → t.Envelope (d, r, BitVec.ofNat 32 n)) ∧
    (n = s.cfg.cyclesPerStep.toNat →
      ∃ r', t.Envelope (if r then d + 1 else d - 1, r', 0))

/-- spec/41_envelope.md R156: from the values INIT leaves, the envelope is at its peak after
DUTY_STEPS × CYCLES_PER_STEP boundary events, back after twice as many and no sooner, and PEAK and
TROUGH are queued at those boundary events. -/
def Obligations.EnvelopeIsPeriodic : Prop :=
  ∀ (s t : State), s.cfg.wf = true → s.Envelope (0, true, 0) →
    let half := s.cfg.dutySteps.toNat * s.cfg.cyclesPerStep.toNat
    (Boundaries half s t → t.Envelope (s.cfg.dutySteps, false, 0)) ∧
    (Boundaries (2 * half) s t → t.Envelope (0, true, 0)) ∧
    (∀ n, 0 < n → n < 2 * half → Boundaries n s t → ¬ t.Envelope (0, true, 0)) ∧
    (∀ u, Boundaries (half - 1) s t → t.input.reset = false → t.ctl = encode .phaseB →
      step t = .next u → u.stop = none → LogKind.peak ∈ u.logQ.map LogEvent.kind) ∧
    (∀ u, Boundaries (2 * half - 1) s t → t.input.reset = false → t.ctl = encode .phaseB →
      step t = .next u → u.stop = none → LogKind.trough ∈ u.logQ.map LogEvent.kind)

/-- spec/60_exceptions.md R188: a LOG_EMIT whose queue is empty, or whose head has another kind, is
refused. -/
def Obligations.LogEmitRefusesAnIllFormedQueue : Prop :=
  ∀ (k : LogKind) (s : State),
    (s.logQ = [] ∨ ∃ ev rest, s.logQ = ev :: rest ∧ ev.kind ≠ k) ↔
      exec (.logEmit k) s = .refused .stateIllFormed

/-- spec/41_envelope.md R160: the accepted offer, the hold, and the refusal; that a hold is a next state
is the model's (log entry 14). -/
def Obligations.LogEmitResult : Prop :=
  ((encode (.logEmit .banner) = 0b10100000 ∧ encode (.logEmit .status) = 0b10100001) ∧
    encode (.logEmit .peak) = 0b10100010 ∧ encode (.logEmit .trough) = 0b10100011) ∧
  ∀ (k : LogKind) (s : State),
    (s.logQ = [] → exec (.logEmit k) s = .refused .stateIllFormed) ∧
    ∀ ev rest, s.logQ = ev :: rest →
      (ev.kind ≠ k → exec (.logEmit k) s = .refused .stateIllFormed) ∧
      (ev.kind = k → s.input.logAccept = true → exec (.logEmit k) s = .next
        { s with
          logQ := rest, log := s.log ++ [ev], hist := s.hist ++ [.log ev]
          ctl := match rest with
            | [] => encode (.trHi1 .loop)
            | e :: _ => encode (.logEmit e.kind) }) ∧
      (ev.kind = k → s.input.logAccept = false → exec (.logEmit k) s = .next s)

/-- spec/20_memory.md R60: while LOG does not accept, a step changes nothing of the block, GPIO, LOG
or the history; only CNT goes on. -/
def Obligations.HoldChangesNothingOfTheBlock : Prop :=
  ∀ (s : State) (ev : LogEvent) (rest : List LogEvent), s.cfg.wf = true → s.stop = none →
    s.input.reset = false → s.logQ = ev :: rest → s.ctl = encode (.logEmit ev.kind) →
    s.input.logAccept = false →
    step s = .next
      { s with
        cnt := s.cnt + BitVec.ofNat 64 s.input.ticks, env := s.env.tail, draws := s.draws + 1 }

/-- spec/10_state.md R21, "written by": what each envelope step leaves unchanged when it answers a
next state; GPIO_SET stores to GPIO_ADDR alone, the other steps store nothing. -/
def Obligations.EnvelopeStepsFrame : Prop :=
  ∀ s t : State,
    (exec .init s = .next t → t =
      { s with duty := t.duty, rising := t.rising, cycleCount := t.cycleCount, ledOn := t.ledOn
               trRetries := t.trRetries, logQ := t.logQ, cycleStart := t.cycleStart
               ctl := t.ctl } ∧
      (s.cfg.initCycleStart = .timerRead → t.cycleStart = s.cycleStart)) ∧
    (exec .envEval s = .next t → t = { s with elapsed := t.elapsed, ctl := t.ctl }) ∧
    (exec .phaseA s = .next t → t = { s with ctl := t.ctl }) ∧
    (exec .phaseB s = .next t → t =
      { s with cycleStart := t.cycleStart, cycleCount := t.cycleCount, duty := t.duty
               rising := t.rising, logQ := t.logQ, ctl := t.ctl }) ∧
    (∀ l, exec (.gpioSet l) s = .next t → t =
      { s with gpio := t.gpio, hist := t.hist, ledOn := t.ledOn, ctl := t.ctl } ∧
      ∀ a, a ≠ s.cfg.gpioAddr → t.present a = s.present a) ∧
    (∀ k, exec (.logEmit k) s = .next t → t =
      { s with logQ := t.logQ, log := t.log, hist := t.hist, ctl := t.ctl })

/-! ## Invariants -/

/-- spec/41_envelope.md R170: every step keeps `EnvWF` of the started envelope registers. -/
def Obligations.EveryStepKeepsEnvelopeWellFormed : Prop :=
  ∀ s t : State, s.EnvSound → step s = .next t → t.EnvSound

/-- spec/10_state.md R37, spec/41_envelope.md R170, R171, R153: every step keeps the run's invariant. -/
def Obligations.EveryStepKeepsTheRunInvariant : Prop :=
  ∀ s t : State, s.Inv → step s = .next t → t.Inv

/-- spec/70_reset_and_hazards.md R202: the run's invariant holds after RESET, for every well-formed
configuration and any `C` and `G`. -/
def Obligations.RunInvariantHoldsAfterReset : Prop :=
  (∀ (cfg : Cfg) (c : U64) (g : U32), cfg.wf = true → (State.powerOn cfg c g).Inv) ∧
    State.reset.Inv

/-- spec/41_envelope.md R170, R171, spec/60_exceptions.md R184: in a run from RESET a running block is
never refused, and stops only on a bus error. That step answers a next state also on a fault, with the
fault recorded and the stop set (log entry 2), and on a hold (log entry 14), where spec/00_scope.md R13
gives outcomes of their own, is the model's choice. -/
def Obligations.OnlyABusErrorStopsARun : Prop :=
  ∀ s : State, s.Inv → s.stop = none →
    ∃ t, step s = .next t ∧ t.refused = false ∧
      (s.input.busError = false → t.stop = none ∧ t.faults = s.faults) ∧
      (t.stop ≠ none → ∃ w a d, t.stop = some (.faulted (.busError w a d)) ∧ w = s.ctl)

/-- spec/41_envelope.md R173, R154: the step language, as the graph of what follows what in a run
from RESET; only a LOG_EMIT that holds repeats itself. That a hold is a next state is the model's (log
entry 14), and so is a faulted block as a next state, which `t.stop = none` leaves out (log entry 2). -/
def Obligations.StepsFollowTheStepLanguage : Prop :=
  ∀ (s t : State) (i : Instr), s.Inv → s.stop = none → s.input.reset = false →
    decode s.ctl = .step i → step s = .next t → t.stop = none →
    (∃ k, i = .logEmit k ∧ t.ctl = s.ctl ∧ t.logQ = s.logQ ∧ s.input.logAccept = false) ∨
      ∃ j ∈ successors s.cfg i, t.ctl = encode j

/-- spec/10_state.md R42, R43, spec/20_memory.md R60: LOG's accepted sequence is the sequence of
log events of the history; it is so after RESET, and every step keeps it. -/
def Obligations.LogSequenceIsTheHistorysEvents : Prop :=
  (∀ (cfg : Cfg) (c : U64) (g : U32),
    (State.powerOn cfg c g).log = (State.powerOn cfg c g).hist.filterMap HistEntry.event?) ∧
  ∀ s t : State, s.log = s.hist.filterMap HistEntry.event? → step s = .next t →
    t.log = t.hist.filterMap HistEntry.event?
end

