-- ==== Sys2Proof/Laws/Flags.lean ====
section
/-!
SUPPORT. What a boundary event makes of well-formed envelope registers, said once: its five cases
(spec/41_envelope.md R150, R152), and that they keep `EnvWF` (R170).
-/

namespace Sys2Proof.Machine

/-- The five cases of a boundary event, with the new registers and the event of each. -/
inductive BoundaryCase (cfg : Cfg) (d : U32) (r : Bool) (cc : U32) : Prop where
  /-- The count goes up, and nothing else changes. -/
  | counts (before : cc.toNat + 1 < cfg.cyclesPerStep.toNat)
      (count : nextCount cfg cc = cc + 1) (count_nat : (cc + 1).toNat = cc.toNat + 1)
      (duty : nextDuty cfg d r cc = d) (rising : nextRising cfg d r cc = r)
      (event : flipEvent cfg d r cc = none)
  /-- A rising duty step below the peak. -/
  | rises (last : cc.toNat + 1 = cfg.cyclesPerStep.toNat) (up : r = true)
      (before : d.toNat + 1 < cfg.dutySteps.toNat) (count : nextCount cfg cc = 0)
      (duty : nextDuty cfg d r cc = d + 1) (duty_nat : (d + 1).toNat = d.toNat + 1)
      (rising : nextRising cfg d r cc = true) (event : flipEvent cfg d r cc = none)
  /-- The rising duty step that reaches DUTY_STEPS. -/
  | peaks (last : cc.toNat + 1 = cfg.cyclesPerStep.toNat) (up : r = true)
      (top : d.toNat + 1 = cfg.dutySteps.toNat) (count : nextCount cfg cc = 0)
      (duty : nextDuty cfg d r cc = d + 1) (duty_nat : (d + 1).toNat = d.toNat + 1)
      (rising : nextRising cfg d r cc = false) (event : flipEvent cfg d r cc = some .peak)
  /-- A falling duty step above the trough. -/
  | falls (last : cc.toNat + 1 = cfg.cyclesPerStep.toNat) (down : r = false)
      (before : 1 < d.toNat) (count : nextCount cfg cc = 0)
      (duty : nextDuty cfg d r cc = d - 1) (duty_nat : (d - 1).toNat + 1 = d.toNat)
      (rising : nextRising cfg d r cc = false) (event : flipEvent cfg d r cc = none)
  /-- The falling duty step that reaches 0. -/
  | troughs (last : cc.toNat + 1 = cfg.cyclesPerStep.toNat) (down : r = false)
      (bottom : d.toNat = 1) (count : nextCount cfg cc = 0)
      (duty : nextDuty cfg d r cc = d - 1) (duty_nat : (d - 1).toNat + 1 = d.toNat)
      (rising : nextRising cfg d r cc = true) (event : flipEvent cfg d r cc = some .trough)

/-- A boundary event of well-formed registers is one of the five cases. -/
theorem boundaryCase {cfg : Cfg} {d : U32} {r : Bool} {cc : U32} (h : envWF cfg d r cc = true) :
    BoundaryCase cfg d r cc := by
  simp only [envWF, Bool.and_eq_true, decide_eq_true_eq] at h
  obtain ⟨⟨hd, hc⟩, hr⟩ := h
  have hcps := cfg.cyclesPerStep.isLt
  have hds := cfg.dutySteps.isLt
  by_cases hlt : cc.toNat + 1 < cfg.cyclesPerStep.toNat
  · have due : dutyStepDue cfg cc = false := by simp [dutyStepDue]; omega
    refine .counts hlt (by simp [nextCount, due]) ?_ (by simp [nextDuty, due])
      (by simp [nextRising, flipEvent, due]) (by simp [flipEvent, due])
    rw [BitVec.toNat_add]
    simp
    omega
  · have due : dutyStepDue cfg cc = true := by simp [dutyStepDue]; omega
    have last : cc.toNat + 1 = cfg.cyclesPerStep.toNat := by omega
    have count : nextCount cfg cc = 0 := by simp [nextCount, due]
    cases r
    · simp only [Bool.false_eq_true, if_false, decide_eq_true_eq] at hr
      have nat : (d - 1).toNat + 1 = d.toNat := by rw [BitVec.toNat_sub]; simp; omega
      have duty : nextDuty cfg d false cc = d - 1 := by simp [nextDuty, due]
      by_cases hone : d.toNat = 1
      · have event : flipEvent cfg d false cc = some .trough := by
          simp only [flipEvent, due, duty, show (d - 1).toNat = 0 by omega]
          simp
        exact .troughs last rfl hone count duty nat (by simp [nextRising, event]) event
      · have event : flipEvent cfg d false cc = none := by
          simp only [flipEvent, due, duty, show ¬(d - 1).toNat = 0 by omega]
          simp
        exact .falls last rfl (by omega) count duty nat (by simp [nextRising, event]) event
    · simp only [if_true, decide_eq_true_eq] at hr
      have nat : (d + 1).toNat = d.toNat + 1 := by rw [BitVec.toNat_add]; simp; omega
      have duty : nextDuty cfg d true cc = d + 1 := by simp [nextDuty, due]
      by_cases htop : d.toNat + 1 < cfg.dutySteps.toNat
      · have event : flipEvent cfg d true cc = none := by
          simp only [flipEvent, due, duty, nat, if_true]
          rw [if_neg (by omega)]
        exact .rises last rfl htop count duty nat (by simp [nextRising, event]) event
      · have event : flipEvent cfg d true cc = some .peak := by
          simp only [flipEvent, due, duty, nat, if_true]
          rw [if_pos (by omega)]
        exact .peaks last rfl (by omega) count duty nat (by simp [nextRising, event]) event

/-- A boundary event keeps `EnvWF`. -/
theorem envWF_boundary {cfg : Cfg} {d : U32} {r : Bool} {cc : U32} (h : envWF cfg d r cc = true) :
    envWF cfg (nextDuty cfg d r cc) (nextRising cfg d r cc) (nextCount cfg cc) = true := by
  have hb := boundaryCase h
  simp only [envWF, Bool.and_eq_true, decide_eq_true_eq] at h ⊢
  obtain ⟨⟨hd, hc⟩, hr⟩ := h
  have zero : (0 : U32).toNat = 0 := rfl
  cases hb with
  | counts before count count_nat duty rising event =>
    rw [count, duty, rising, count_nat]
    exact ⟨⟨hd, before⟩, hr⟩
  | rises last up before count duty duty_nat rising event =>
    rw [count, duty, rising, duty_nat]
    simp
    omega
  | peaks last up top count duty duty_nat rising event =>
    rw [count, duty, rising, duty_nat]
    simp
    omega
  | falls last down before count duty duty_nat rising event =>
    rw [count, duty, rising]
    simp only [zero, Bool.false_eq_true, if_false, decide_eq_true_eq]
    omega
  | troughs last down bottom count duty duty_nat rising event =>
    rw [count, duty, rising]
    simp only [zero, if_true, decide_eq_true_eq]
    omega

end Sys2Proof.Machine
end

