-- ==== Sys2Proof/Machine/Trace.lean ====
section
/-!
DEFINITION. The trace notation (spec/30_encoding.md R89, R90): the spelling of each step, the lines
of a trace, and the expansions of the two pseudo-steps. It names steps; it gives them no meaning.
-/

namespace Sys2Proof.Machine

/-- The spelling of a context or a level: its bit (R89). -/
def bitText (b : Bool) : String := if b then "1" else "0"

/-- The spelling of a read context (R89). -/
def ctxText : Ctx → String
  | .startup => "0"
  | .loop => "1"

/-- The spelling of an event kind (R89). -/
def kindText : LogKind → String
  | .banner => "banner"
  | .status => "status"
  | .peak => "peak"
  | .trough => "trough"

/-- The spelling of a step in a trace (R89). -/
def traceText : Instr → String
  | .reset => "reset"
  | .init => "init"
  | .trHi1 c => "tr.hi1 " ++ ctxText c
  | .trLo c => "tr.lo " ++ ctxText c
  | .trHi2 c => "tr.hi2 " ++ ctxText c
  | .trCmp c => "tr.cmp " ++ ctxText c
  | .envEval => "env.eval"
  | .phaseA => "phase.a"
  | .phaseB => "phase.b"
  | .gpioSet l => "gpio.set " ++ bitText l
  | .logEmit k => "log.emit " ++ kindText k

/-- A line of a trace: a step, with the answer of its bus read where it is shown, or `adv k`, a CNT
advance, which is no block step and has no label (R89). -/
inductive TraceLine where
  | step (i : Instr) (answer : Option U32)
  | adv (k : Nat)
  deriving DecidableEq, Repr

/-- The label byte of a trace line; `adv` has none (R89). -/
def TraceLine.label : TraceLine → Option Label
  | .step i _ => some (encode i)
  | .adv _ => none

/-- One attempt of a read (R90, R104). -/
def attemptSteps (c : Ctx) : List Instr := [.trHi1 c, .trLo c, .trHi2 c, .trCmp c]

/-- `tread c` with `failed` failing attempts before the one that succeeds (R90). -/
def treadSteps (c : Ctx) (failed : Nat) : List Instr :=
  (List.replicate (failed + 1) (attemptSteps c)).flatten

/-- `iter` with the first tail: PHASE_A, and GPIO_SET where R141's condition holds (R90). -/
def iterWithin (failed : Nat) (write : Option Bool) : List Instr :=
  treadSteps .loop failed ++ [.envEval, .phaseA] ++ (write.map .gpioSet).toList

/-- `iter` with the second tail: PHASE_B, and one LOG_EMIT per queued event (R90). -/
def iterBoundary (failed : Nat) (events : List LogKind) : List Instr :=
  treadSteps .loop failed ++ [.envEval, .phaseB] ++ events.map .logEmit

end Sys2Proof.Machine
end

