-- ==== Sys2Proof/Laws/State.lean ====
section
/-!
SUPPORT. For each named update of State, what each field is after it: one lemma per field per update,
true by rfl. A proof reads a field of an updated state with simp and never unfolds the update.
-/

namespace Sys2Proof.Machine

/-! `State.record`: one entry of the history (R43). -/

@[simp] theorem State.record_cfg (s : State) (e : HistEntry) : (s.record e).cfg = s.cfg := rfl
@[simp] theorem State.record_ctl (s : State) (e : HistEntry) : (s.record e).ctl = s.ctl := rfl
@[simp] theorem State.record_duty (s : State) (e : HistEntry) : (s.record e).duty = s.duty := rfl
@[simp] theorem State.record_rising (s : State) (e : HistEntry) :
    (s.record e).rising = s.rising := rfl
@[simp] theorem State.record_cycleCount (s : State) (e : HistEntry) :
    (s.record e).cycleCount = s.cycleCount := rfl
@[simp] theorem State.record_cycleStart (s : State) (e : HistEntry) :
    (s.record e).cycleStart = s.cycleStart := rfl
@[simp] theorem State.record_now (s : State) (e : HistEntry) : (s.record e).now = s.now := rfl
@[simp] theorem State.record_elapsed (s : State) (e : HistEntry) :
    (s.record e).elapsed = s.elapsed := rfl
@[simp] theorem State.record_ledOn (s : State) (e : HistEntry) : (s.record e).ledOn = s.ledOn := rfl
@[simp] theorem State.record_h1 (s : State) (e : HistEntry) : (s.record e).h1 = s.h1 := rfl
@[simp] theorem State.record_lo (s : State) (e : HistEntry) : (s.record e).lo = s.lo := rfl
@[simp] theorem State.record_h2 (s : State) (e : HistEntry) : (s.record e).h2 = s.h2 := rfl
@[simp] theorem State.record_logQ (s : State) (e : HistEntry) : (s.record e).logQ = s.logQ := rfl
@[simp] theorem State.record_trRetries (s : State) (e : HistEntry) :
    (s.record e).trRetries = s.trRetries := rfl
@[simp] theorem State.record_cnt (s : State) (e : HistEntry) : (s.record e).cnt = s.cnt := rfl
@[simp] theorem State.record_gpio (s : State) (e : HistEntry) : (s.record e).gpio = s.gpio := rfl
@[simp] theorem State.record_log (s : State) (e : HistEntry) : (s.record e).log = s.log := rfl
@[simp] theorem State.record_hist (s : State) (e : HistEntry) :
    (s.record e).hist = s.hist ++ [e] := rfl
@[simp] theorem State.record_stop (s : State) (e : HistEntry) : (s.record e).stop = s.stop := rfl
@[simp] theorem State.record_faults (s : State) (e : HistEntry) :
    (s.record e).faults = s.faults := rfl
@[simp] theorem State.record_refused (s : State) (e : HistEntry) :
    (s.record e).refused = s.refused := rfl
@[simp] theorem State.record_env (s : State) (e : HistEntry) : (s.record e).env = s.env := rfl
@[simp] theorem State.record_draws (s : State) (e : HistEntry) : (s.record e).draws = s.draws := rfl

/-! `State.deviceWrite`: the GPIO register (R54). -/

@[simp] theorem State.deviceWrite_cfg (s : State) (a : Nat) (v : U32) :
    (s.deviceWrite a v).cfg = s.cfg := rfl
@[simp] theorem State.deviceWrite_ctl (s : State) (a : Nat) (v : U32) :
    (s.deviceWrite a v).ctl = s.ctl := rfl
@[simp] theorem State.deviceWrite_duty (s : State) (a : Nat) (v : U32) :
    (s.deviceWrite a v).duty = s.duty := rfl
@[simp] theorem State.deviceWrite_rising (s : State) (a : Nat) (v : U32) :
    (s.deviceWrite a v).rising = s.rising := rfl
@[simp] theorem State.deviceWrite_cycleCount (s : State) (a : Nat) (v : U32) :
    (s.deviceWrite a v).cycleCount = s.cycleCount := rfl
@[simp] theorem State.deviceWrite_cycleStart (s : State) (a : Nat) (v : U32) :
    (s.deviceWrite a v).cycleStart = s.cycleStart := rfl
@[simp] theorem State.deviceWrite_now (s : State) (a : Nat) (v : U32) :
    (s.deviceWrite a v).now = s.now := rfl
@[simp] theorem State.deviceWrite_elapsed (s : State) (a : Nat) (v : U32) :
    (s.deviceWrite a v).elapsed = s.elapsed := rfl
@[simp] theorem State.deviceWrite_ledOn (s : State) (a : Nat) (v : U32) :
    (s.deviceWrite a v).ledOn = s.ledOn := rfl
@[simp] theorem State.deviceWrite_h1 (s : State) (a : Nat) (v : U32) :
    (s.deviceWrite a v).h1 = s.h1 := rfl
@[simp] theorem State.deviceWrite_lo (s : State) (a : Nat) (v : U32) :
    (s.deviceWrite a v).lo = s.lo := rfl
@[simp] theorem State.deviceWrite_h2 (s : State) (a : Nat) (v : U32) :
    (s.deviceWrite a v).h2 = s.h2 := rfl
@[simp] theorem State.deviceWrite_logQ (s : State) (a : Nat) (v : U32) :
    (s.deviceWrite a v).logQ = s.logQ := rfl
@[simp] theorem State.deviceWrite_trRetries (s : State) (a : Nat) (v : U32) :
    (s.deviceWrite a v).trRetries = s.trRetries := rfl
@[simp] theorem State.deviceWrite_cnt (s : State) (a : Nat) (v : U32) :
    (s.deviceWrite a v).cnt = s.cnt := rfl
@[simp] theorem State.deviceWrite_gpio (s : State) (a : Nat) (v : U32) :
    (s.deviceWrite a v).gpio = if a = s.cfg.gpioAddr then v else s.gpio := rfl
@[simp] theorem State.deviceWrite_log (s : State) (a : Nat) (v : U32) :
    (s.deviceWrite a v).log = s.log := rfl
@[simp] theorem State.deviceWrite_hist (s : State) (a : Nat) (v : U32) :
    (s.deviceWrite a v).hist = s.hist := rfl
@[simp] theorem State.deviceWrite_stop (s : State) (a : Nat) (v : U32) :
    (s.deviceWrite a v).stop = s.stop := rfl
@[simp] theorem State.deviceWrite_faults (s : State) (a : Nat) (v : U32) :
    (s.deviceWrite a v).faults = s.faults := rfl
@[simp] theorem State.deviceWrite_refused (s : State) (a : Nat) (v : U32) :
    (s.deviceWrite a v).refused = s.refused := rfl
@[simp] theorem State.deviceWrite_env (s : State) (a : Nat) (v : U32) :
    (s.deviceWrite a v).env = s.env := rfl
@[simp] theorem State.deviceWrite_draws (s : State) (a : Nat) (v : U32) :
    (s.deviceWrite a v).draws = s.draws := rfl

/-! `State.acceptLog`: LOG accepts an event (R60). -/

@[simp] theorem State.acceptLog_cfg (s : State) (ev : LogEvent) :
    (s.acceptLog ev).cfg = s.cfg := rfl
@[simp] theorem State.acceptLog_ctl (s : State) (ev : LogEvent) :
    (s.acceptLog ev).ctl = s.ctl := rfl
@[simp] theorem State.acceptLog_duty (s : State) (ev : LogEvent) :
    (s.acceptLog ev).duty = s.duty := rfl
@[simp] theorem State.acceptLog_rising (s : State) (ev : LogEvent) :
    (s.acceptLog ev).rising = s.rising := rfl
@[simp] theorem State.acceptLog_cycleCount (s : State) (ev : LogEvent) :
    (s.acceptLog ev).cycleCount = s.cycleCount := rfl
@[simp] theorem State.acceptLog_cycleStart (s : State) (ev : LogEvent) :
    (s.acceptLog ev).cycleStart = s.cycleStart := rfl
@[simp] theorem State.acceptLog_now (s : State) (ev : LogEvent) :
    (s.acceptLog ev).now = s.now := rfl
@[simp] theorem State.acceptLog_elapsed (s : State) (ev : LogEvent) :
    (s.acceptLog ev).elapsed = s.elapsed := rfl
@[simp] theorem State.acceptLog_ledOn (s : State) (ev : LogEvent) :
    (s.acceptLog ev).ledOn = s.ledOn := rfl
@[simp] theorem State.acceptLog_h1 (s : State) (ev : LogEvent) : (s.acceptLog ev).h1 = s.h1 := rfl
@[simp] theorem State.acceptLog_lo (s : State) (ev : LogEvent) : (s.acceptLog ev).lo = s.lo := rfl
@[simp] theorem State.acceptLog_h2 (s : State) (ev : LogEvent) : (s.acceptLog ev).h2 = s.h2 := rfl
@[simp] theorem State.acceptLog_logQ (s : State) (ev : LogEvent) :
    (s.acceptLog ev).logQ = s.logQ := rfl
@[simp] theorem State.acceptLog_trRetries (s : State) (ev : LogEvent) :
    (s.acceptLog ev).trRetries = s.trRetries := rfl
@[simp] theorem State.acceptLog_cnt (s : State) (ev : LogEvent) :
    (s.acceptLog ev).cnt = s.cnt := rfl
@[simp] theorem State.acceptLog_gpio (s : State) (ev : LogEvent) :
    (s.acceptLog ev).gpio = s.gpio := rfl
@[simp] theorem State.acceptLog_log (s : State) (ev : LogEvent) :
    (s.acceptLog ev).log = s.log ++ [ev] := rfl
@[simp] theorem State.acceptLog_hist (s : State) (ev : LogEvent) :
    (s.acceptLog ev).hist = s.hist ++ [.log ev] := rfl
@[simp] theorem State.acceptLog_stop (s : State) (ev : LogEvent) :
    (s.acceptLog ev).stop = s.stop := rfl
@[simp] theorem State.acceptLog_faults (s : State) (ev : LogEvent) :
    (s.acceptLog ev).faults = s.faults := rfl
@[simp] theorem State.acceptLog_refused (s : State) (ev : LogEvent) :
    (s.acceptLog ev).refused = s.refused := rfl
@[simp] theorem State.acceptLog_env (s : State) (ev : LogEvent) :
    (s.acceptLog ev).env = s.env := rfl
@[simp] theorem State.acceptLog_draws (s : State) (ev : LogEvent) :
    (s.acceptLog ev).draws = s.draws := rfl

/-! `State.advanceCnt`: CNT advances (R40). -/

@[simp] theorem State.advanceCnt_cfg (s : State) : (s.advanceCnt).cfg = s.cfg := rfl
@[simp] theorem State.advanceCnt_ctl (s : State) : (s.advanceCnt).ctl = s.ctl := rfl
@[simp] theorem State.advanceCnt_duty (s : State) : (s.advanceCnt).duty = s.duty := rfl
@[simp] theorem State.advanceCnt_rising (s : State) : (s.advanceCnt).rising = s.rising := rfl
@[simp] theorem State.advanceCnt_cycleCount (s : State) :
    (s.advanceCnt).cycleCount = s.cycleCount := rfl
@[simp] theorem State.advanceCnt_cycleStart (s : State) :
    (s.advanceCnt).cycleStart = s.cycleStart := rfl
@[simp] theorem State.advanceCnt_now (s : State) : (s.advanceCnt).now = s.now := rfl
@[simp] theorem State.advanceCnt_elapsed (s : State) : (s.advanceCnt).elapsed = s.elapsed := rfl
@[simp] theorem State.advanceCnt_ledOn (s : State) : (s.advanceCnt).ledOn = s.ledOn := rfl
@[simp] theorem State.advanceCnt_h1 (s : State) : (s.advanceCnt).h1 = s.h1 := rfl
@[simp] theorem State.advanceCnt_lo (s : State) : (s.advanceCnt).lo = s.lo := rfl
@[simp] theorem State.advanceCnt_h2 (s : State) : (s.advanceCnt).h2 = s.h2 := rfl
@[simp] theorem State.advanceCnt_logQ (s : State) : (s.advanceCnt).logQ = s.logQ := rfl
@[simp] theorem State.advanceCnt_trRetries (s : State) :
    (s.advanceCnt).trRetries = s.trRetries := rfl
@[simp] theorem State.advanceCnt_cnt (s : State) :
    (s.advanceCnt).cnt = s.cnt + BitVec.ofNat 64 s.input.ticks := rfl
@[simp] theorem State.advanceCnt_gpio (s : State) : (s.advanceCnt).gpio = s.gpio := rfl
@[simp] theorem State.advanceCnt_log (s : State) : (s.advanceCnt).log = s.log := rfl
@[simp] theorem State.advanceCnt_hist (s : State) : (s.advanceCnt).hist = s.hist := rfl
@[simp] theorem State.advanceCnt_stop (s : State) : (s.advanceCnt).stop = s.stop := rfl
@[simp] theorem State.advanceCnt_faults (s : State) : (s.advanceCnt).faults = s.faults := rfl
@[simp] theorem State.advanceCnt_refused (s : State) : (s.advanceCnt).refused = s.refused := rfl
@[simp] theorem State.advanceCnt_env (s : State) : (s.advanceCnt).env = s.env := rfl
@[simp] theorem State.advanceCnt_draws (s : State) : (s.advanceCnt).draws = s.draws := rfl

/-! `State.consume`: the step opportunity is used up. -/

@[simp] theorem State.consume_cfg (s : State) : (s.consume).cfg = s.cfg := rfl
@[simp] theorem State.consume_ctl (s : State) : (s.consume).ctl = s.ctl := rfl
@[simp] theorem State.consume_duty (s : State) : (s.consume).duty = s.duty := rfl
@[simp] theorem State.consume_rising (s : State) : (s.consume).rising = s.rising := rfl
@[simp] theorem State.consume_cycleCount (s : State) : (s.consume).cycleCount = s.cycleCount := rfl
@[simp] theorem State.consume_cycleStart (s : State) : (s.consume).cycleStart = s.cycleStart := rfl
@[simp] theorem State.consume_now (s : State) : (s.consume).now = s.now := rfl
@[simp] theorem State.consume_elapsed (s : State) : (s.consume).elapsed = s.elapsed := rfl
@[simp] theorem State.consume_ledOn (s : State) : (s.consume).ledOn = s.ledOn := rfl
@[simp] theorem State.consume_h1 (s : State) : (s.consume).h1 = s.h1 := rfl
@[simp] theorem State.consume_lo (s : State) : (s.consume).lo = s.lo := rfl
@[simp] theorem State.consume_h2 (s : State) : (s.consume).h2 = s.h2 := rfl
@[simp] theorem State.consume_logQ (s : State) : (s.consume).logQ = s.logQ := rfl
@[simp] theorem State.consume_trRetries (s : State) : (s.consume).trRetries = s.trRetries := rfl
@[simp] theorem State.consume_cnt (s : State) : (s.consume).cnt = s.cnt := rfl
@[simp] theorem State.consume_gpio (s : State) : (s.consume).gpio = s.gpio := rfl
@[simp] theorem State.consume_log (s : State) : (s.consume).log = s.log := rfl
@[simp] theorem State.consume_hist (s : State) : (s.consume).hist = s.hist := rfl
@[simp] theorem State.consume_stop (s : State) : (s.consume).stop = s.stop := rfl
@[simp] theorem State.consume_faults (s : State) : (s.consume).faults = s.faults := rfl
@[simp] theorem State.consume_refused (s : State) : (s.consume).refused = s.refused := rfl
@[simp] theorem State.consume_env (s : State) : (s.consume).env = s.env.tail := rfl
@[simp] theorem State.consume_draws (s : State) : (s.consume).draws = s.draws + 1 := rfl

/-! `State.recordFault`: taking a fault (R180). -/

@[simp] theorem State.recordFault_cfg (s : State) (f : Fault) : (s.recordFault f).cfg = s.cfg := rfl
@[simp] theorem State.recordFault_ctl (s : State) (f : Fault) : (s.recordFault f).ctl = s.ctl := rfl
@[simp] theorem State.recordFault_duty (s : State) (f : Fault) :
    (s.recordFault f).duty = s.duty := rfl
@[simp] theorem State.recordFault_rising (s : State) (f : Fault) :
    (s.recordFault f).rising = s.rising := rfl
@[simp] theorem State.recordFault_cycleCount (s : State) (f : Fault) :
    (s.recordFault f).cycleCount = s.cycleCount := rfl
@[simp] theorem State.recordFault_cycleStart (s : State) (f : Fault) :
    (s.recordFault f).cycleStart = s.cycleStart := rfl
@[simp] theorem State.recordFault_now (s : State) (f : Fault) : (s.recordFault f).now = s.now := rfl
@[simp] theorem State.recordFault_elapsed (s : State) (f : Fault) :
    (s.recordFault f).elapsed = s.elapsed := rfl
@[simp] theorem State.recordFault_ledOn (s : State) (f : Fault) :
    (s.recordFault f).ledOn = s.ledOn := rfl
@[simp] theorem State.recordFault_h1 (s : State) (f : Fault) : (s.recordFault f).h1 = s.h1 := rfl
@[simp] theorem State.recordFault_lo (s : State) (f : Fault) : (s.recordFault f).lo = s.lo := rfl
@[simp] theorem State.recordFault_h2 (s : State) (f : Fault) : (s.recordFault f).h2 = s.h2 := rfl
@[simp] theorem State.recordFault_logQ (s : State) (f : Fault) :
    (s.recordFault f).logQ = s.logQ := rfl
@[simp] theorem State.recordFault_trRetries (s : State) (f : Fault) :
    (s.recordFault f).trRetries = s.trRetries := rfl
@[simp] theorem State.recordFault_cnt (s : State) (f : Fault) : (s.recordFault f).cnt = s.cnt := rfl
@[simp] theorem State.recordFault_gpio (s : State) (f : Fault) :
    (s.recordFault f).gpio = s.gpio := rfl
@[simp] theorem State.recordFault_log (s : State) (f : Fault) : (s.recordFault f).log = s.log := rfl
@[simp] theorem State.recordFault_hist (s : State) (f : Fault) :
    (s.recordFault f).hist = s.hist ++ f.histEntries := rfl
@[simp] theorem State.recordFault_stop (s : State) (f : Fault) :
    (s.recordFault f).stop = some (.faulted f) := rfl
@[simp] theorem State.recordFault_faults (s : State) (f : Fault) :
    (s.recordFault f).faults = s.faults ++ [f] := rfl
@[simp] theorem State.recordFault_refused (s : State) (f : Fault) :
    (s.recordFault f).refused = s.refused := rfl
@[simp] theorem State.recordFault_env (s : State) (f : Fault) : (s.recordFault f).env = s.env := rfl
@[simp] theorem State.recordFault_draws (s : State) (f : Fault) :
    (s.recordFault f).draws = s.draws := rfl

/-! `State.recordRefusal`: the sticky mark (R187). -/

@[simp] theorem State.recordRefusal_cfg (s : State) (r : Refusal) :
    (s.recordRefusal r).cfg = s.cfg := rfl
@[simp] theorem State.recordRefusal_ctl (s : State) (r : Refusal) :
    (s.recordRefusal r).ctl = s.ctl := rfl
@[simp] theorem State.recordRefusal_duty (s : State) (r : Refusal) :
    (s.recordRefusal r).duty = s.duty := rfl
@[simp] theorem State.recordRefusal_rising (s : State) (r : Refusal) :
    (s.recordRefusal r).rising = s.rising := rfl
@[simp] theorem State.recordRefusal_cycleCount (s : State) (r : Refusal) :
    (s.recordRefusal r).cycleCount = s.cycleCount := rfl
@[simp] theorem State.recordRefusal_cycleStart (s : State) (r : Refusal) :
    (s.recordRefusal r).cycleStart = s.cycleStart := rfl
@[simp] theorem State.recordRefusal_now (s : State) (r : Refusal) :
    (s.recordRefusal r).now = s.now := rfl
@[simp] theorem State.recordRefusal_elapsed (s : State) (r : Refusal) :
    (s.recordRefusal r).elapsed = s.elapsed := rfl
@[simp] theorem State.recordRefusal_ledOn (s : State) (r : Refusal) :
    (s.recordRefusal r).ledOn = s.ledOn := rfl
@[simp] theorem State.recordRefusal_h1 (s : State) (r : Refusal) :
    (s.recordRefusal r).h1 = s.h1 := rfl
@[simp] theorem State.recordRefusal_lo (s : State) (r : Refusal) :
    (s.recordRefusal r).lo = s.lo := rfl
@[simp] theorem State.recordRefusal_h2 (s : State) (r : Refusal) :
    (s.recordRefusal r).h2 = s.h2 := rfl
@[simp] theorem State.recordRefusal_logQ (s : State) (r : Refusal) :
    (s.recordRefusal r).logQ = s.logQ := rfl
@[simp] theorem State.recordRefusal_trRetries (s : State) (r : Refusal) :
    (s.recordRefusal r).trRetries = s.trRetries := rfl
@[simp] theorem State.recordRefusal_cnt (s : State) (r : Refusal) :
    (s.recordRefusal r).cnt = s.cnt := rfl
@[simp] theorem State.recordRefusal_gpio (s : State) (r : Refusal) :
    (s.recordRefusal r).gpio = s.gpio := rfl
@[simp] theorem State.recordRefusal_log (s : State) (r : Refusal) :
    (s.recordRefusal r).log = s.log := rfl
@[simp] theorem State.recordRefusal_hist (s : State) (r : Refusal) :
    (s.recordRefusal r).hist = s.hist := rfl
@[simp] theorem State.recordRefusal_stop (s : State) (r : Refusal) :
    (s.recordRefusal r).stop = some (.refused r) := rfl
@[simp] theorem State.recordRefusal_faults (s : State) (r : Refusal) :
    (s.recordRefusal r).faults = s.faults := rfl
@[simp] theorem State.recordRefusal_refused (s : State) (r : Refusal) :
    (s.recordRefusal r).refused = true := rfl
@[simp] theorem State.recordRefusal_env (s : State) (r : Refusal) :
    (s.recordRefusal r).env = s.env := rfl
@[simp] theorem State.recordRefusal_draws (s : State) (r : Refusal) :
    (s.recordRefusal r).draws = s.draws := rfl

/-! `State.resetBlock`: RESET (R200). -/

@[simp] theorem State.resetBlock_cfg (s : State) : (s.resetBlock).cfg = s.cfg := rfl
@[simp] theorem State.resetBlock_ctl (s : State) : (s.resetBlock).ctl = encode .init := rfl
@[simp] theorem State.resetBlock_duty (s : State) : (s.resetBlock).duty = .unwritten := rfl
@[simp] theorem State.resetBlock_rising (s : State) : (s.resetBlock).rising = .unwritten := rfl
@[simp] theorem State.resetBlock_cycleCount (s : State) :
    (s.resetBlock).cycleCount = .unwritten := rfl
@[simp] theorem State.resetBlock_cycleStart (s : State) :
    (s.resetBlock).cycleStart = .unwritten := rfl
@[simp] theorem State.resetBlock_now (s : State) : (s.resetBlock).now = .unwritten := rfl
@[simp] theorem State.resetBlock_elapsed (s : State) : (s.resetBlock).elapsed = .unwritten := rfl
@[simp] theorem State.resetBlock_ledOn (s : State) : (s.resetBlock).ledOn = .unwritten := rfl
@[simp] theorem State.resetBlock_h1 (s : State) : (s.resetBlock).h1 = .unwritten := rfl
@[simp] theorem State.resetBlock_lo (s : State) : (s.resetBlock).lo = .unwritten := rfl
@[simp] theorem State.resetBlock_h2 (s : State) : (s.resetBlock).h2 = .unwritten := rfl
@[simp] theorem State.resetBlock_logQ (s : State) : (s.resetBlock).logQ = [] := rfl
@[simp] theorem State.resetBlock_trRetries (s : State) :
    (s.resetBlock).trRetries = .unwritten := rfl
@[simp] theorem State.resetBlock_cnt (s : State) : (s.resetBlock).cnt = s.cnt := rfl
@[simp] theorem State.resetBlock_gpio (s : State) : (s.resetBlock).gpio = s.gpio := rfl
@[simp] theorem State.resetBlock_log (s : State) : (s.resetBlock).log = s.log := rfl
@[simp] theorem State.resetBlock_hist (s : State) : (s.resetBlock).hist = s.hist ++ [.reset] := rfl
@[simp] theorem State.resetBlock_stop (s : State) : (s.resetBlock).stop = none := rfl
@[simp] theorem State.resetBlock_faults (s : State) : (s.resetBlock).faults = s.faults := rfl
@[simp] theorem State.resetBlock_refused (s : State) : (s.resetBlock).refused = s.refused := rfl
@[simp] theorem State.resetBlock_env (s : State) : (s.resetBlock).env = s.env := rfl
@[simp] theorem State.resetBlock_draws (s : State) : (s.resetBlock).draws = s.draws := rfl

/-! `State.withInput`: a chosen input. -/

@[simp] theorem State.withInput_cfg (s : State) (i : EnvInput) : (s.withInput i).cfg = s.cfg := rfl
@[simp] theorem State.withInput_ctl (s : State) (i : EnvInput) : (s.withInput i).ctl = s.ctl := rfl
@[simp] theorem State.withInput_duty (s : State) (i : EnvInput) :
    (s.withInput i).duty = s.duty := rfl
@[simp] theorem State.withInput_rising (s : State) (i : EnvInput) :
    (s.withInput i).rising = s.rising := rfl
@[simp] theorem State.withInput_cycleCount (s : State) (i : EnvInput) :
    (s.withInput i).cycleCount = s.cycleCount := rfl
@[simp] theorem State.withInput_cycleStart (s : State) (i : EnvInput) :
    (s.withInput i).cycleStart = s.cycleStart := rfl
@[simp] theorem State.withInput_now (s : State) (i : EnvInput) : (s.withInput i).now = s.now := rfl
@[simp] theorem State.withInput_elapsed (s : State) (i : EnvInput) :
    (s.withInput i).elapsed = s.elapsed := rfl
@[simp] theorem State.withInput_ledOn (s : State) (i : EnvInput) :
    (s.withInput i).ledOn = s.ledOn := rfl
@[simp] theorem State.withInput_h1 (s : State) (i : EnvInput) : (s.withInput i).h1 = s.h1 := rfl
@[simp] theorem State.withInput_lo (s : State) (i : EnvInput) : (s.withInput i).lo = s.lo := rfl
@[simp] theorem State.withInput_h2 (s : State) (i : EnvInput) : (s.withInput i).h2 = s.h2 := rfl
@[simp] theorem State.withInput_logQ (s : State) (i : EnvInput) :
    (s.withInput i).logQ = s.logQ := rfl
@[simp] theorem State.withInput_trRetries (s : State) (i : EnvInput) :
    (s.withInput i).trRetries = s.trRetries := rfl
@[simp] theorem State.withInput_cnt (s : State) (i : EnvInput) : (s.withInput i).cnt = s.cnt := rfl
@[simp] theorem State.withInput_gpio (s : State) (i : EnvInput) :
    (s.withInput i).gpio = s.gpio := rfl
@[simp] theorem State.withInput_log (s : State) (i : EnvInput) : (s.withInput i).log = s.log := rfl
@[simp] theorem State.withInput_hist (s : State) (i : EnvInput) :
    (s.withInput i).hist = s.hist := rfl
@[simp] theorem State.withInput_stop (s : State) (i : EnvInput) :
    (s.withInput i).stop = s.stop := rfl
@[simp] theorem State.withInput_faults (s : State) (i : EnvInput) :
    (s.withInput i).faults = s.faults := rfl
@[simp] theorem State.withInput_refused (s : State) (i : EnvInput) :
    (s.withInput i).refused = s.refused := rfl
@[simp] theorem State.withInput_env (s : State) (i : EnvInput) :
    (s.withInput i).env = i :: s.env := rfl
@[simp] theorem State.withInput_draws (s : State) (i : EnvInput) :
    (s.withInput i).draws = s.draws := rfl

/-! The environment's input is read from `env` and `draws` alone. -/

@[simp] theorem State.record_input (s : State) (e : HistEntry) : (s.record e).input = s.input := rfl

@[simp] theorem State.advanceCnt_input (s : State) : s.advanceCnt.input = s.input := rfl

@[simp] theorem State.resetBlock_input (s : State) : s.resetBlock.input = s.input := rfl

@[simp] theorem State.withInput_input (s : State) (i : EnvInput) : (s.withInput i).input = i := rfl

/-- A non-empty tape gives its head. -/
theorem State.input_cons (s : State) (i : EnvInput) (is : List EnvInput) (h : s.env = i :: is) :
    s.input = i := by
  simp [State.input, h]

/-! Cells. -/

@[simp] theorem Cell.map_unwritten {α β : Type} (f : α → β) :
    (Cell.unwritten : Cell α).map f = .unwritten := rfl

@[simp] theorem Cell.map_written {α β : Type} (f : α → β) (v : α) :
    (Cell.written v).map f = .written (f v) := rfl

end Sys2Proof.Machine
end

