-- ==== Sys2Proof/Laws/Ops.lean ====
section
/-!
SUPPORT. For each shared operation, what it can answer, said once: a proof about a meaning cites
these and does not unfold the operation.
-/

namespace Sys2Proof.Machine

/-! Reading a register (R12, R183). -/

@[simp] theorem needReg_written {α : Type} (v : α) (r : RegName) (k : α → Result) :
    needReg (.written v) r k = k v := rfl

@[simp] theorem needReg_unwritten {α : Type} (r : RegName) (k : α → Result) :
    needReg .unwritten r k = .fault (.unwrittenRead r) := rfl

/-- A register read goes on exactly when the cell holds a value. -/
theorem needReg_next_iff {α : Type} {c : Cell α} {r : RegName} {k : α → Result} {t : State} :
    needReg c r k = .next t ↔ ∃ v, c = .written v ∧ k v = .next t := by
  cases c <;> simp

/-! Bus accesses (R53, R54, R69). -/

/-- A well-formed map tells the two timer halves apart (R8). -/
theorem Cfg_wf_distinct {c : Cfg} (h : c.wf = true) :
    c.timerLoAddr ≠ c.timerHiAddr ∧ c.timerLoAddr ≠ c.gpioAddr ∧ c.timerHiAddr ≠ c.gpioAddr := by
  simp only [Cfg.wf, Cfg.distinct, Bool.and_eq_true, decide_eq_true_eq] at h
  exact ⟨h.1.2.1.1, h.1.2.1.2, h.1.2.2⟩

@[simp] theorem State.present_hi (s : State) :
    s.present s.cfg.timerHiAddr = some (highHalf s.cnt) := by
  simp [State.present]

theorem State.present_lo {s : State} (h : s.cfg.wf = true) :
    s.present s.cfg.timerLoAddr = some (lowHalf s.cnt) := by
  simp [State.present, (Cfg_wf_distinct h).1]

theorem memRead_ok {i : Instr} {a : Nat} {s : State} {v : U32} {k : U32 → State → Result}
    (hb : s.input.busError = false) (hv : s.present a = some v) :
    memRead i a s k = k v (s.record (.rd a v)) := by
  simp [memRead, hb, hv]

theorem memRead_error {i : Instr} {a : Nat} {s : State} {k : U32 → State → Result}
    (hb : s.input.busError = true) :
    memRead i a s k = .fault (.busError (encode i) a none) := by
  simp [memRead, hb]

/-- A read goes on exactly when the bus answers and the device presents a value. -/
theorem memRead_next_iff {i : Instr} {a : Nat} {s t : State} {k : U32 → State → Result} :
    memRead i a s k = .next t ↔
      s.input.busError = false ∧ ∃ v, s.present a = some v ∧ k v (s.record (.rd a v)) = .next t := by
  unfold memRead
  cases s.input.busError <;> cases s.present a <;> simp

theorem memWrite_ok {i : Instr} {a : Nat} {v : U32} {s : State} {k : State → Result}
    (hb : s.input.busError = false) :
    memWrite i a v s k = k ((s.deviceWrite a v).record (.wr a v)) := by
  simp [memWrite, hb]

theorem memWrite_error {i : Instr} {a : Nat} {v : U32} {s : State} {k : State → Result}
    (hb : s.input.busError = true) :
    memWrite i a v s k = .fault (.busError (encode i) a (some v)) := by
  simp [memWrite, hb]

/-- A write goes on exactly when the bus answers. -/
theorem memWrite_next_iff {i : Instr} {a : Nat} {v : U32} {s t : State} {k : State → Result} :
    memWrite i a v s k = .next t ↔
      s.input.busError = false ∧ k ((s.deviceWrite a v).record (.wr a v)) = .next t := by
  unfold memWrite
  cases s.input.busError <;> simp

/-! The log port (R60). -/

theorem logOffer_accepted {ev : LogEvent} {s : State} {k : State → Result}
    (h : s.input.logAccept = true) : logOffer ev s k = k (s.acceptLog ev) := by
  simp [logOffer, h]

theorem logOffer_held {ev : LogEvent} {s : State} {k : State → Result}
    (h : s.input.logAccept = false) : logOffer ev s k = .next s := by
  simp [logOffer, h]

/-- An offer is accepted, or the step holds. -/
theorem logOffer_next_iff {ev : LogEvent} {s t : State} {k : State → Result} :
    logOffer ev s k = .next t ↔
      (s.input.logAccept = true ∧ k (s.acceptLog ev) = .next t) ∨
        (s.input.logAccept = false ∧ s = t) := by
  unfold logOffer
  cases s.input.logAccept <;> simp

/-! The next label and the queue. -/

@[simp] theorem afterLog_nil : afterLog [] = encode (.trHi1 .loop) := rfl

@[simp] theorem afterLog_cons (ev : LogEvent) (q : List LogEvent) :
    afterLog (ev :: q) = encode (.logEmit ev.kind) := rfl

/-! One step opportunity (R180, R185, R187, R191). -/

@[simp] theorem State.settle_next (s t : State) : s.settle (.next t) = .next t.consume := rfl

@[simp] theorem State.settle_fault (s : State) (f : Fault) :
    s.settle (.fault f) = .next (s.recordFault f).consume := rfl

@[simp] theorem State.settle_refused (s : State) (r : Refusal) :
    s.settle (.refused r) = .next (s.recordRefusal r).consume := rfl

/-! The access a fault leaves in the history (R69). -/

@[simp] theorem Fault.histEntries_read (w : Label) (a : Nat) :
    (Fault.busError w a none).histEntries = [.rdError a] := rfl

@[simp] theorem Fault.histEntries_write (w : Label) (a : Nat) (v : U32) :
    (Fault.busError w a (some v)).histEntries = [.wrError a v] := rfl

@[simp] theorem Fault.histEntries_envInvariant (d : U32) (r : Bool) (cc : U32) :
    (Fault.envInvariant d r cc).histEntries = [] := rfl

@[simp] theorem Fault.histEntries_unwrittenRead (r : RegName) :
    (Fault.unwrittenRead r).histEntries = [] := rfl

/-- The next state of a settled answer: the meaning's own, or the recorded stop. -/
theorem State.settle_next_iff {s t : State} {o : Result} :
    s.settle o = .next t ↔
      (∃ u, o = .next u ∧ t = u.consume) ∨ (∃ f, o = .fault f ∧ t = (s.recordFault f).consume) ∨
        ∃ r, o = .refused r ∧ t = (s.recordRefusal r).consume := by
  cases o <;> simp [eq_comm]

/-- RESET takes precedence over the block's next step and over a stop. -/
theorem State.select_reset {s : State} (hw : s.cfg.wf = true) (hr : s.input.reset = true) :
    s.select = .run .reset s := by
  simp [State.select, hw, hr]

/-- A stopped block has no step. -/
theorem State.select_stopped {s : State} {r : StopReason} (hw : s.cfg.wf = true)
    (hr : s.input.reset = false) (hs : s.stop = some r) : s.select = .halt r := by
  simp [State.select, hw, hr, hs]

/-- A running block runs the step `ctl` names. -/
theorem State.select_step {s : State} {i : Instr} (hw : s.cfg.wf = true)
    (hr : s.input.reset = false) (hs : s.stop = none) (hd : decode s.ctl = .step i)
    (hi : i.mayBeHeld = true) : s.select = .run i s.advanceCnt := by
  simp [State.select, hw, hr, hs, hd, hi]

/-- A reserved label is rejected. -/
theorem State.select_reserved {s : State} {why : ReservedBecause} (hw : s.cfg.wf = true)
    (hr : s.input.reset = false) (hs : s.stop = none) (hd : decode s.ctl = .reserved why) :
    s.select = .reject (.reservedLabel s.ctl) s.advanceCnt := by
  simp [State.select, hw, hr, hs, hd]

/-- A `ctl` that holds RESET is rejected. -/
theorem State.select_ctl_reset {s : State} {i : Instr} (hw : s.cfg.wf = true)
    (hr : s.input.reset = false) (hs : s.stop = none) (hd : decode s.ctl = .step i)
    (hi : i.mayBeHeld = false) :
    s.select = .reject (.reservedLabel s.ctl) s.advanceCnt := by
  simp [State.select, hw, hr, hs, hd, hi]

/-- An ill-formed configuration has no step. -/
theorem State.select_cfg {s : State} (hw : s.cfg.wf = false) :
    s.select = .halt (.refused .configIllFormed) := by
  simp [State.select, hw]

theorem step_of_run {s t : State} {i : Instr} (h : s.select = .run i t) :
    step s = t.settle (exec i t) := by
  simp [step, h]

theorem step_of_reject {s t : State} {r : Refusal} (h : s.select = .reject r t) :
    step s = .next (t.recordRefusal r).consume := by
  simp [step, h]

/-- Everything a step that answers a next state can be: RESET; a step of the block that completes or
holds, faults, or is refused; or a label that is refused. -/
theorem step_next_cases {s t : State} (h : step s = .next t) :
    s.cfg.wf = true ∧
      ((s.input.reset = true ∧ t = s.resetBlock.consume) ∨
        (s.input.reset = false ∧ s.stop = none ∧
          ((∃ i u, decode s.ctl = .step i ∧ i.mayBeHeld = true ∧
              exec i s.advanceCnt = .next u ∧ t = u.consume) ∨
            (∃ i f, decode s.ctl = .step i ∧ i.mayBeHeld = true ∧
              exec i s.advanceCnt = .fault f ∧ t = (s.advanceCnt.recordFault f).consume) ∨
            (∃ i r, decode s.ctl = .step i ∧ i.mayBeHeld = true ∧
              exec i s.advanceCnt = .refused r ∧ t = (s.advanceCnt.recordRefusal r).consume) ∨
            ((∀ i, decode s.ctl = .step i → i.mayBeHeld = false) ∧
              t = (s.advanceCnt.recordRefusal (.reservedLabel s.ctl)).consume)))) := by
  cases hw : s.cfg.wf
  · rw [step, State.select_cfg hw] at h
    cases h
  refine ⟨rfl, ?_⟩
  cases hr : s.input.reset
  · refine .inr ⟨rfl, ?_⟩
    cases hs : s.stop with
    | some r => rw [step, State.select_stopped hw hr hs] at h; cases r <;> cases h
    | none =>
      refine ⟨rfl, ?_⟩
      cases hd : decode s.ctl with
      | reserved why =>
        rw [step_of_reject (State.select_reserved hw hr hs hd)] at h
        cases h
        exact .inr (.inr (.inr ⟨fun i hi => Decoded.noConfusion hi, rfl⟩))
      | step i =>
        cases hm : i.mayBeHeld
        · rw [step_of_reject (State.select_ctl_reset hw hr hs hd hm)] at h
          cases h
          exact .inr (.inr (.inr ⟨fun j hj => (Decoded.step.inj hj) ▸ hm, rfl⟩))
        · rw [step_of_run (State.select_step hw hr hs hd hm), State.settle_next_iff] at h
          rcases h with ⟨u, hu, rfl⟩ | ⟨f, hf, rfl⟩ | ⟨r, hr', rfl⟩
          · exact .inl ⟨i, u, rfl, hm, hu, rfl⟩
          · exact .inr (.inl ⟨i, f, rfl, hm, hf, rfl⟩)
          · exact .inr (.inr (.inl ⟨i, r, rfl, hm, hr', rfl⟩))
  · rw [step_of_run (State.select_reset hw hr)] at h
    cases h
    exact .inl ⟨rfl, rfl⟩

end Sys2Proof.Machine
end

