-- ==== Sys2Proof/Laws/Labels.lean ====
section
/-!
SUPPORT. Labels as the meanings write them into `ctl`: two steps with one label are one step, so a
claim about `ctl` is a claim about the step it names (spec/30_encoding.md R81).
-/

namespace Sys2Proof

/-- A left inverse of `encode`, read off the decoder. -/
def stepOf (w : Label) : Instr :=
  match decode w with
  | .step i => i
  | .reserved _ => .reset

theorem stepOf_encode (i : Instr) : stepOf (encode i) = i := by
  cases i
  all_goals first | rfl | (rename_i a; cases a <;> rfl)

@[simp] theorem encode_eq_iff {i j : Instr} : encode i = encode j ↔ i = j :=
  ⟨fun h => by rw [← stepOf_encode i, h, stepOf_encode], fun h => by rw [h]⟩

namespace Machine

/-- The next label after a queue is a LOG_EMIT of its head's kind, or the loop read. -/
theorem afterLog_cases (q : List LogEvent) :
    (q = [] ∧ afterLog q = encode (.trHi1 .loop)) ∨
      ∃ ev rest, q = ev :: rest ∧ afterLog q = encode (.logEmit ev.kind) := by
  cases q with
  | nil => exact .inl ⟨rfl, rfl⟩
  | cons ev rest => exact .inr ⟨ev, rest, rfl, rfl⟩

end Machine

end Sys2Proof
end

