-- ==== Sys2Proof/Laws/PerInstr.lean ====
section
/-!
SUPPORT. Statements made per instruction, about the instruction as a label. LegalLabel: no step's
label is reserved, by the field conditions of spec/30_encoding.md R82 and R83.
-/

namespace Sys2Proof.Laws.LegalLabel

/-- The label of `i` is none of the reserved labels of R83. -/
def Statement (i : Instr) : Prop := reservedLabel (encode i) = false

theorem reset : Statement .reset := rfl

theorem init : Statement .init := rfl

theorem trHi1 (c : Ctx) : Statement (.trHi1 c) := by cases c <;> rfl

theorem trLo (c : Ctx) : Statement (.trLo c) := by cases c <;> rfl

theorem trHi2 (c : Ctx) : Statement (.trHi2 c) := by cases c <;> rfl

theorem trCmp (c : Ctx) : Statement (.trCmp c) := by cases c <;> rfl

theorem envEval : Statement .envEval := rfl

theorem phaseA : Statement .phaseA := rfl

theorem phaseB : Statement .phaseB := rfl

theorem gpioSet (l : Bool) : Statement (.gpioSet l) := by cases l <;> rfl

theorem logEmit (k : LogKind) : Statement (.logEmit k) := by cases k <;> rfl

end Sys2Proof.Laws.LegalLabel
end

