-- ==== Sys2Proof/Tests/Slice0.lean ====
section
/-!
SUPPORT. Tests: labels written out from spec/30_encoding.md R81, ill-formed configurations, single
steps of the vectors of spec/95_test_vectors.md, and for every statement with hypotheses a witness
that meets all of them together.
-/

namespace Sys2Proof.Tests

open Sys2Proof.Machine

/-! ## Helpers -/

/-- The state an answer holds; the reset state where it holds none. -/
def nextOf : Result → State
  | .next t => t
  | .fault _ => State.reset
  | .refused _ => State.reset

/-- The state after one step. -/
def after (s : State) : State := nextOf (step s)

/-- A state whose next step has the label `w`, under one quiet input (95_test_vectors.md). -/
def atLabel (w : Label) : State :=
  { State.powerOn Cfg.standard 0x64 0 with ctl := w, env := [EnvInput.quiet] }

/-- The same, in the loop: the envelope registers of vector PA-3 and the registers of a read. -/
def looping (w : Label) : State :=
  { atLabel w with
    duty := .written 25, rising := .written true, cycleCount := .written 0
    cycleStart := .written 0x64, now := .written 0x64, elapsed := .written 39999
    ledOn := .written false, trRetries := .written 0
    h1 := .written 0, lo := .written 0x64, h2 := .written 0 }

/-- The envelope registers `(duty, rising, cycle_count)` at PHASE_B. -/
def boundaryAt (d : U32) (r : Bool) (cc : U32) : State :=
  { looping 0x80 with duty := .written d, rising := .written r, cycleCount := .written cc }

/-- A bus that answers with an error. -/
def errorInput : EnvInput := { EnvInput.quiet with busError := true }

/-- An asserted RESET. -/
def resetInput : EnvInput := { EnvInput.quiet with reset := true }

/-- A quiet input before which CNT advances by `k` ticks (`adv k`). -/
def adv (k : Nat) : EnvInput := { EnvInput.quiet with ticks := k }

/-! ## Well-formedness (vectors CF-1 to CF-7): one refused configuration for each check -/

theorem test_standard_config_is_accepted : Cfg.standard.wf = true := by decide

theorem test_zero_constants_are_refused :
    { Cfg.standard with dutySteps := 0 }.wf = false ∧
    { Cfg.standard with cyclesPerStep := 0 }.wf = false ∧
    { Cfg.standard with pwmPeriod := 0 }.wf = false := by decide

theorem test_product_bound :
    { Cfg.standard with pwmPeriod := 0x200000000, dutySteps := 0x80000000 }.wf = false ∧
    { Cfg.standard with pwmPeriod := 0x200000000, dutySteps := 0x7FFFFFFF }.wf = true := by decide

theorem test_overlapping_addresses_are_refused :
    { Cfg.standard with timerLoAddr := 0x40000000, timerHiAddr := 0x40000000 }.wf = false ∧
    { Cfg.standard with gpioAddr := 0x40000000 }.wf = false ∧
    { Cfg.standard with gpioAddr := 0x40000004 }.wf = false := by decide

theorem test_misaligned_address_is_refused :
    { Cfg.standard with gpioAddr := 0x40001002 }.wf = false ∧
    { Cfg.standard with timerLoAddr := 0x40000001 }.wf = false ∧
    { Cfg.standard with timerHiAddr := 0x40000007 }.wf = false := by decide

theorem test_address_width_bound :
    { Cfg.standard with addrW := 16 }.wf = false ∧
    { Cfg.standard with addrW := 30 }.wf = false ∧
    { Cfg.standard with addrW := 31 }.wf = true := by decide

theorem test_only_reset_is_never_held :
    Instr.reset.mayBeHeld = false ∧ Instr.init.mayBeHeld = true := by decide

theorem test_period_of_frequencies : Cfg.standard.periodOfFreqs = 160000 := by decide

/-! ## Decoding: each row of R81, its label written out bit by bit -/

theorem test_decode_reset_and_init :
    decode 0b00000000 = .step .reset ∧ decode 0b00010000 = .step .init := by decide

theorem test_decode_tr_hi1 :
    decode 0b00100000 = .step (.trHi1 .startup) ∧ decode 0b00100001 = .step (.trHi1 .loop) := by
  decide

theorem test_decode_tr_lo :
    decode 0b00110000 = .step (.trLo .startup) ∧ decode 0b00110001 = .step (.trLo .loop) := by
  decide

theorem test_decode_tr_hi2 :
    decode 0b01000000 = .step (.trHi2 .startup) ∧ decode 0b01000001 = .step (.trHi2 .loop) := by
  decide

theorem test_decode_tr_cmp :
    decode 0b01010000 = .step (.trCmp .startup) ∧ decode 0b01010001 = .step (.trCmp .loop) := by
  decide

theorem test_decode_phases :
    decode 0b01100000 = .step .envEval ∧ decode 0b01110000 = .step .phaseA ∧
    decode 0b10000000 = .step .phaseB := by decide

theorem test_decode_gpio_set :
    decode 0b10010000 = .step (.gpioSet false) ∧ decode 0b10010001 = .step (.gpioSet true) := by
  decide

theorem test_decode_log_emit :
    decode 0b10100000 = .step (.logEmit .banner) ∧ decode 0b10100001 = .step (.logEmit .status) ∧
    decode 0b10100010 = .step (.logEmit .peak) ∧ decode 0b10100011 = .step (.logEmit .trough) := by
  decide

/-- Vectors RL-1, RL-2, RL-4, RL-5, RL-6. -/
theorem test_reserved_labels :
    decode 0xB0 = .reserved (.unusedOp 0xB) ∧ decode 0xFF = .reserved (.unusedOp 0xF) ∧
    decode 0x22 = .reserved (.argBits 2 2) ∧ decode 0x11 = .reserved (.argBits 1 1) ∧
    decode 0x61 = .reserved (.argBits 6 1) ∧ decode 0x71 = .reserved (.argBits 7 1) ∧
    decode 0x81 = .reserved (.argBits 8 1) ∧ decode 0xA4 = .reserved (.argBits 0xA 4) := by decide

theorem test_table_word :
    decodeTableWord 8 0x31 = some (.trLo .loop) ∧ decodeTableWord 8 0x92 = none ∧
    decodeTableWord 8 0x121 = none := by decide

/-- R89's spellings and label bytes of a step and of `adv`. -/
theorem test_trace_lines :
    traceText (.trHi1 .loop) = "tr.hi1 1" ∧ traceText (.logEmit .trough) = "log.emit trough" ∧
    (TraceLine.step (.gpioSet true) none).label = some 0x91 ∧ (TraceLine.adv 5).label = none := by
  decide

/-- R90: the labels of the boundary iteration in row 6 and 7 of program P3. -/
theorem test_iter_labels :
    (iterBoundary 0 [.peak, .status]).map encode =
      [0x21, 0x31, 0x41, 0x51, 0x60, 0x80, 0xA2, 0xA1] := by decide

/-! ## The vectors of spec/95_test_vectors.md -/

/-- RS-1: a pending GPIO write is discarded; `G` and the counter stay. -/
theorem test_RS1 :
    let s := { looping 0x91 with gpio := 7, env := [resetInput] }
    (after s).ctl = 0x10 ∧ (after s).duty = .unwritten ∧ (after s).gpio = 7 ∧
    (after s).cnt = 0x64 ∧ (after s).hist = [.reset, .reset] := by decide

/-- IN-2: TimerRead with the banner drawn. -/
theorem test_IN2 :
    let t := nextOf (exec .init { atLabel 0x10 with env := [{ EnvInput.quiet with banner := true }] })
    t.ctl = 0x20 ∧ t.logQ = [⟨.banner, 0, true⟩] ∧ t.cycleStart = .unwritten ∧
    t.rising = .written true := by decide

/-- IN-3: Zero with the banner drawn. -/
theorem test_IN3 :
    let s := { atLabel 0x10 with
      cfg := { Cfg.standard with initCycleStart := .zero }
      env := [{ EnvInput.quiet with banner := true }] }
    (nextOf (exec .init s)).ctl = 0xA0 ∧ (nextOf (exec .init s)).cycleStart = .written 0 := by decide

/-- TR-1, the first high read. -/
theorem test_TR1_hi1 :
    let t := nextOf (exec (.trHi1 .loop) { looping 0x21 with cnt := 0x0000000123456789 })
    t.h1 = .written 1 ∧ t.ctl = 0x31 ∧ t.hist = [.reset, .rd 0x40000004 1] := by decide

/-- TR-1, the low read. -/
theorem test_TR1_lo :
    let t := nextOf (exec (.trLo .loop) { looping 0x31 with cnt := 0x0000000123456789 })
    t.lo = .written 0x23456789 ∧ t.ctl = 0x41 ∧ t.hist = [.reset, .rd 0x40000000 0x23456789] := by
  decide

/-- TR-9: the bus answers the low read with an error. -/
theorem test_TR9 :
    let s := { looping 0x31 with env := [errorInput] }
    (after s).faults = [.busError 0x31 0x40000000 none] ∧ (after s).lo = .written 0x64 ∧
    (after s).hist = [.reset, .rdError 0x40000000] ∧
    (after s).stop = some (.faulted (.busError 0x31 0x40000000 none)) := by decide

/-- The example of R102: after `adv 0x20` the high half is 8. -/
theorem test_R102_example :
    let s := { looping 0x41 with cnt := 0x00000007FFFFFFF0, env := [adv 0x20] }
    (after s).h2 = .written 8 ∧ (after s).ctl = 0x51 := by decide

/-- TR-3: the failed comparison. -/
theorem test_TR3_retry :
    let t := nextOf (exec (.trCmp .loop)
      { looping 0x51 with h1 := .written 0, lo := .written 1, h2 := .written 1 })
    t.trRetries = .written 1 ∧ t.ctl = 0x21 ∧ t.now = .written 0x64 := by decide

/-- TR-8: the start-up read with the banner queued. -/
theorem test_TR8 :
    let t := nextOf (exec (.trCmp .startup) { looping 0x50 with logQ := [⟨.banner, 0, true⟩] })
    t.now = .written 0x64 ∧ t.cycleStart = .written 0x64 ∧ t.ctl = 0xA0 := by decide

/-- EE-1 and EE-2: equality is a boundary. -/
theorem test_EE1_EE2 :
    let s := { looping 0x60 with cycleStart := .written 0x100000000 }
    (nextOf (exec .envEval { s with now := .written (0x100000000 + 159999) })).ctl = 0x70 ∧
    (nextOf (exec .envEval { s with now := .written (0x100000000 + 160000) })).ctl = 0x80 := by
  decide

/-- EE-3: the wrapping subtraction. -/
theorem test_EE3 :
    let t := nextOf (exec .envEval
      { looping 0x60 with now := .written 5, cycleStart := .written 0xFFFFFFFFFFFFFFFE })
    t.elapsed = .written 7 ∧ t.ctl = 0x70 := by decide

/-- PA-3 and PA-4: the last on tick and the first off tick of duty 25. -/
theorem test_PA3_PA4 :
    (nextOf (exec .phaseA (looping 0x70))).ctl = 0x91 ∧
    (nextOf (exec .phaseA
      { looping 0x70 with elapsed := .written 40000, ledOn := .written true })).ctl = 0x90 := by
  decide

/-- The on-times listed in 95_test_vectors.md, section 2.3. -/
theorem test_on_ticks :
    [0, 1, 25, 50, 99, 100].map (onTicks Cfg.standard) =
      [0, 1600, 40000, 80000, 158400, 160000] ∧
    [0, 1, 2, 3].map (onTicks { Cfg.standard with pwmPeriod := 10, dutySteps := 3 }) =
      [0, 3, 6, 10] ∧
    [1, 0xFFFFFFFF].map
      (onTicks { Cfg.standard with pwmPeriod := 0x100000000, dutySteps := 0xFFFFFFFF }) =
      [1, 0x100000000] := by decide

/-- PA-11: rising at DUTY_STEPS. -/
theorem test_PA11 :
    exec .phaseA { looping 0x70 with duty := .written 100 } =
      .fault (.envInvariant 100 true 0) := rfl

/-- GS-2: every bit `[31:1]` is cleared. -/
theorem test_GS2 :
    let t := nextOf (exec (.gpioSet false) { looping 0x90 with gpio := 0xFFFFFFFF })
    t.gpio = 0 ∧ t.ledOn = .written false ∧ t.ctl = 0x21 ∧
    t.hist = [.reset, .wr 0x40001000 0] := by decide

/-- GS-4: the bus answers the write with an error. -/
theorem test_GS4 :
    let s := { looping 0x91 with env := [errorInput] }
    (after s).faults = [.busError 0x91 0x40001000 (some 1)] ∧ (after s).ledOn = .written false ∧
    (after s).gpio = 0 ∧ (after s).hist = [.reset, .wrError 0x40001000 1] := by decide

/-- PB-8: the peak with STATUS drawn and ordered first. -/
theorem test_PB8 :
    let s := { boundaryAt 99 true 1 with
      env := [{ EnvInput.quiet with status := true, swap := true }] }
    let t := nextOf (exec .phaseB s)
    t.logQ = [⟨.status, 100, false⟩, ⟨.peak, 100, false⟩] ∧ t.ctl = 0xA1 ∧
    t.duty = .written 100 ∧ t.cycleCount = .written 0 := by decide

/-- PB-7: the trough. -/
theorem test_PB7 :
    let t := nextOf (exec .phaseB (boundaryAt 1 false 1))
    t.logQ = [⟨.trough, 0, true⟩] ∧ t.ctl = 0xA3 ∧ t.duty = .written 0 ∧
    t.rising = .written true := by decide

/-- LE-2: an accepted offer, with another event behind it. -/
theorem test_LE2 :
    let t := nextOf (exec (.logEmit .status)
      { looping 0xA1 with logQ := [⟨.status, 100, false⟩, ⟨.peak, 100, false⟩] })
    t.logQ = [⟨.peak, 100, false⟩] ∧ t.ctl = 0xA2 ∧ t.log = [⟨.status, 100, false⟩] ∧
    t.hist = [.reset, .log ⟨.status, 100, false⟩] := by decide

/-- LE-4 and LE-5: an empty queue, and a head of another kind. -/
theorem test_LE4_LE5 :
    exec (.logEmit .peak) (looping 0xA2) = .refused .stateIllFormed ∧
    exec (.logEmit .trough) { looping 0xA3 with logQ := [⟨.peak, 100, false⟩] } =
      .refused .stateIllFormed := ⟨rfl, rfl⟩

/-- RL-3 and RL-7: RESET in `ctl`, and a reserved label, are refused before any register is read. -/
theorem test_RL3_RL7 :
    (after (atLabel 0x00)).stop = some (.refused (.reservedLabel 0x00)) ∧
    (after (atLabel 0xB0)).stop = some (.refused (.reservedLabel 0xB0)) ∧
    (after (atLabel 0xB0)).refused = true := by decide

/-- RL-8: `UnwrittenRead` is reported before `EnvInvariant`. -/
theorem test_RL8 :
    exec .phaseA { looping 0x70 with duty := .unwritten, rising := .written false } =
      .fault (.unwrittenRead .duty) := rfl

/-- The first step from `State.reset` with a label placed runs that label. -/
theorem test_placed_label_runs :
    (after (State.reset.withFetchWord 8 0x00)).hist = [.reset, .reset] ∧
    (after (State.reset.withFetchWord 8 0x10)).ctl = 0x20 ∧
    (after (State.reset.withFetchWord 8 0x91)).gpio = 1 := by decide

/-! ## Witnesses: for each statement with hypotheses, states and operands that meet them together -/

/-- A running block under a well-formed configuration, about to run the step `i`. -/
abbrev Runs (s : State) (i : Instr) : Prop :=
  s.cfg.wf = true ∧ s.input.reset = false ∧ s.stop = none ∧ decode s.ctl = .step i ∧ i ≠ .reset

theorem witness_DecodedStepHasThatLabel : decode 0xA3 = .step (.logEmit .trough) := by decide

/-- A step that completes, one that faults and one that is refused. -/
theorem witness_StepRunsTheLabelInCtl :
    (Runs (atLabel 0x10) .init ∧ ∃ t, exec .init (atLabel 0x10).advanceCnt = .next t) ∧
    (Runs (atLabel 0x51) (.trCmp .loop) ∧
      exec (.trCmp .loop) (atLabel 0x51).advanceCnt = .fault (.unwrittenRead .h1)) ∧
    (Runs (atLabel 0xA0) (.logEmit .banner) ∧
      exec (.logEmit .banner) (atLabel 0xA0).advanceCnt = .refused .stateIllFormed) :=
  ⟨⟨by decide, _, rfl⟩, ⟨by decide, rfl⟩, ⟨by decide, rfl⟩⟩

theorem witness_ResetResult :
    let s := { looping 0x91 with env := [resetInput] }
    s.cfg.wf = true ∧ s.input.reset = true := by decide

theorem witness_IllFormedConfigHasNoStep :
    { looping 0x91 with cfg := { Cfg.standard with cyclesPerStep := 0 } }.cfg.wf = false := by decide

/-- Both disjuncts: a reserved label, at both ends of the unused `op` range, and RESET. -/
theorem witness_ReservedLabelIsRefused :
    ∀ w ∈ [0xB0, 0xFF, 0x22, 0x00], (atLabel w).cfg.wf = true ∧ (atLabel w).input.reset = false ∧
      (atLabel w).stop = none ∧
      (reservedLabel (atLabel w).ctl = true ∨ (atLabel w).ctl = encode .reset) := by decide

/-- Each of the four shapes of a fault: the bus error of a write and of a read, the broken envelope
invariant, and an unwritten read. -/
theorem witness_FaultWritesOnlyTheRecord :
    (let s := { looping 0x91 with env := [errorInput] }
     Runs s (.gpioSet true) ∧
       exec (.gpioSet true) s.advanceCnt = .fault (.busError 0x91 0x40001000 (some 1))) ∧
    (let s := { looping 0x31 with env := [errorInput] }
     Runs s (.trLo .loop) ∧
       exec (.trLo .loop) s.advanceCnt = .fault (.busError 0x31 0x40000000 none)) ∧
    (let s := boundaryAt 10 true 2
     Runs s .phaseB ∧ exec .phaseB s.advanceCnt = .fault (.envInvariant 10 true 2)) ∧
    (Runs (atLabel 0x60) .envEval ∧
      exec .envEval (atLabel 0x60).advanceCnt = .fault (.unwrittenRead .now)) :=
  ⟨⟨by decide, rfl⟩, ⟨by decide, rfl⟩, ⟨by decide, rfl⟩, ⟨by decide, rfl⟩⟩

/-- A block stopped by a fault, one stopped by a refusal, and RESET asserted on the first. -/
theorem witness_StoppedBlockHasNoStepUntilReset :
    (let s := after (atLabel 0x60)
     let t := { s with env := [EnvInput.quiet] }
     t.cfg.wf = true ∧ t.stop = some (.faulted (.unwrittenRead .now)) ∧ t.input.reset = false) ∧
    (let s := after (atLabel 0xB0)
     let t := { s with env := [EnvInput.quiet] }
     t.cfg.wf = true ∧ t.stop = some (.refused (.reservedLabel 0xB0)) ∧ t.input.reset = false) ∧
    (let s := after (atLabel 0x60)
     let t := { s with env := [resetInput] }
     t.cfg.wf = true ∧ t.stop ≠ none ∧ t.input.reset = true) := by decide

theorem witness_BusErrorFaultsWithItsRecord :
    let s := { looping 0x31 with env := [errorInput] }
    s.input.busError = true ∧ s.cfg.wf = true ∧
      exec (.trLo .loop) s = .fault (.busError 0x31 0x40000000 none) :=
  ⟨by decide, by decide, rfl⟩

/-- Also of StepRecordsAtMostOneEvent and NoStepWritesTheConfiguration: a step, here of a state with
the refusal mark set. -/
theorem witness_FaultAndRefusalRecordsAreSticky :
    let s := { looping 0x91 with refused := true, faults := [.unwrittenRead .now] }
    (∃ t, step s = .next t) ∧ s.refused = true := ⟨⟨_, rfl⟩, rfl⟩

/-- A meaning, a step with an advance, and a RESET step. -/
theorem witness_CounterChangesOnlyByItsAdvance :
    (∃ t, exec .envEval (looping 0x60) = .next t) ∧
    (let s := { looping 0x60 with env := [adv 7] }
     s.input.ticks = 7 ∧ s.input.reset = false ∧ ∃ t, step s = .next t) ∧
    (let s := { looping 0x60 with env := [{ resetInput with ticks := 7 }] }
     s.input.reset = true ∧ ∃ t, step s = .next t) :=
  ⟨⟨_, rfl⟩, ⟨rfl, rfl, _, rfl⟩, ⟨rfl, _, rfl⟩⟩

/-- A step that writes `ctl`, and a hold. -/
theorem witness_NoStepWritesAReservedLabel :
    (∃ t, exec .phaseB (looping 0x80) = .next t) ∧
    (let s := { looping 0xA2 with
       logQ := [⟨.peak, 25, true⟩], env := [{ EnvInput.quiet with logAccept := false }] }
     exec (.logEmit .peak) s = .next s) := ⟨⟨_, rfl⟩, rfl⟩

/-- Also of TrLoResult and TrHi2Result: an answered read and one answered with an error. -/
theorem witness_TrHi1Result :
    (looping 0x21).cfg.wf = true ∧ (looping 0x21).input.busError = false ∧
    { looping 0x21 with env := [errorInput] }.cfg.wf = true ∧
    { looping 0x21 with env := [errorInput] }.input.busError = true := by decide

/-- A consistent pair with and without the banner queued, two high halves that differ across the
wrap, and an unwritten latch. -/
theorem witness_TrCmpResult :
    ((looping 0x50).h1 = .written 0 ∧ (looping 0x50).lo = .written 0x64 ∧
      (looping 0x50).h2 = .written 0 ∧ (looping 0x50).logQ = []) ∧
    (let s := { looping 0x50 with logQ := [⟨.banner, 0, true⟩] }
     s.h1 = .written 0 ∧ s.lo = .written 0x64 ∧ s.h2 = .written 0 ∧
       s.logQ = ⟨.banner, 0, true⟩ :: []) ∧
    (let s := { looping 0x51 with h1 := .written 0xFFFFFFFF }
     s.h1 = .written 0xFFFFFFFF ∧ s.lo = .written 0x64 ∧ s.h2 = .written 0 ∧
       (0xFFFFFFFF : U32) ≠ 0 ∧ s.trRetries = .written 0) ∧
    (atLabel 0x51).Lacks .h1 := by
  refine ⟨by decide, by decide, by decide, rfl⟩

/-- The ghost counter unwritten. -/
theorem witness_RetryNeedsNoGhostCount :
    let s := { looping 0x51 with h1 := .written 1, trRetries := .unwritten }
    s.h1 = .written 1 ∧ s.lo = .written 0x64 ∧ s.h2 = .written 0 ∧ (1 : U32) ≠ 0 ∧
      s.trRetries = .unwritten := by decide

theorem witness_TimerReadFrame :
    (∃ t, exec (.trHi1 .loop) (looping 0x21) = .next t) ∧
    (∃ t, exec (.trLo .loop) (looping 0x31) = .next t) ∧
    (∃ t, exec (.trHi2 .loop) (looping 0x41) = .next t) ∧
    (∃ t, exec (.trCmp .startup) (looping 0x50) = .next t) :=
  ⟨⟨_, rfl⟩, ⟨_, rfl⟩, ⟨_, rfl⟩, ⟨_, rfl⟩⟩

/-- The state before a read of context `c` with `C = n`, under these advances. -/
def readFrom (c : Ctx) (n : U64) (env : List EnvInput) : State :=
  { looping (encode (.trHi1 c)) with cnt := n, env := env }

/-- Four steps from `s0` that are an attempt. -/
theorem attempt_of {c : Ctx} {s0 s1 s2 s3 s4 : State}
    (h : s0.cfg.wf = true ∧ s0.stop = none ∧ s0.ctl = encode (.trHi1 c) ∧
      (∀ s ∈ [s0, s1, s2, s3], s.input.reset = false) ∧ ∀ s ∈ [s0, s1, s2], s.input.busError = false)
    (e0 : step s0 = .next s1) (e1 : step s1 = .next s2) (e2 : step s2 = .next s3)
    (e3 : step s3 = .next s4) : Attempt c s0 s1 s2 s3 s4 :=
  ⟨h.1, h.2.1, h.2.2.1, e0, e1, e2, e3, h.2.2.2.1, h.2.2.2.2⟩

/-- An attempt whose window is `2^32 - 1` ticks and holds no carry. -/
def still : State := readFrom .startup 0 [EnvInput.quiet, adv 0xFFFFFFFF, adv 0, EnvInput.quiet]

/-- An attempt whose window is one tick, across the wrap at `2^64`. -/
def wrapping : State :=
  readFrom .loop 0xFFFFFFFFFFFFFFFF [EnvInput.quiet, adv 0, adv 1, EnvInput.quiet]

/-- Also of AttemptReadsHighLowHigh: both clauses, the first at the longest window that can hold no
carry. -/
theorem witness_ConsistentTimerRead :
    (∃ s1 s2 s3 s4, Attempt .startup still s1 s2 s3 s4 ∧ s3.h1 = s3.h2 ∧
      attemptWindow s1 s2 ≤ 2 ^ 64 - 2 ^ 32) ∧
    (∃ s1 s2 s3 s4, Attempt .loop wrapping s1 s2 s3 s4 ∧ s3.h1 ≠ s3.h2) :=
  ⟨⟨_, _, _, _, attempt_of (s1 := after still) (by decide) rfl rfl rfl rfl, by decide, by decide⟩,
   ⟨_, _, _, _, attempt_of (s1 := after wrapping) (by decide) rfl rfl rfl rfl, by decide⟩⟩

/-- Without a carry at the window's bound, and with one. -/
theorem witness_RetryExactlyOnACarry :
    (∃ s1 s2 s3 s4, Attempt .startup still s1 s2 s3 s4 ∧ attemptWindow s1 s2 = 2 ^ 32 - 1 ∧
      ¬ CarryIn s1.cnt.toNat (attemptWindow s1 s2)) ∧
    (∃ s1 s2 s3 s4, Attempt .loop wrapping s1 s2 s3 s4 ∧ attemptWindow s1 s2 < 2 ^ 32 ∧
      CarryIn s1.cnt.toNat (attemptWindow s1 s2)) :=
  ⟨⟨_, _, _, _, attempt_of (s1 := after still) (by decide) rfl rfl rfl rfl,
      by decide, by unfold CarryIn; decide⟩,
   ⟨_, _, _, _, attempt_of (s1 := after wrapping) (by decide) rfl rfl rfl rfl,
      by decide, by unfold CarryIn; decide⟩⟩

/-- Vector TR-3 and the attempt after it, with the two windows together at ENV3's bound. -/
def twice : State :=
  readFrom .loop 0xFFFFFFFF [adv 0, adv 2, adv 0, adv 0, adv 0, adv 0xFFFFFFFD, adv 0, adv 0]

theorem witness_SecondAttemptSucceeds :
    ∃ a1 a2 a3 a4 b1 b2 b3 b4, Attempt .loop twice a1 a2 a3 a4 ∧ Attempt .loop a4 b1 b2 b3 b4 ∧
      a3.h1 ≠ a3.h2 ∧ a1.input.ticks + a2.input.ticks + a3.input.ticks + a4.input.ticks +
        b1.input.ticks + b2.input.ticks = 2 ^ 32 - 1 ∧ twice.trRetries = .written 0 :=
  ⟨_, _, _, _, _, _, _, _, attempt_of (s1 := after twice) (by decide) rfl rfl rfl rfl,
    attempt_of (by decide) rfl rfl rfl rfl, by decide, by decide, by decide⟩

/-- Two reads in succession, 0x10 ticks apart. -/
def reads : State :=
  readFrom .startup 0x200000000 [adv 0, adv 0, adv 3, adv 0, adv 8, adv 5, adv 0, adv 0]

/-- The state after `n` of those steps. -/
def readsAfter : Nat → State
  | 0 => reads
  | n + 1 => after (readsAfter n)

theorem reads_elapse : Elapses 0x10 (readsAfter 2) (readsAfter 6) :=
  have h : 0 + (readsAfter 2).input.ticks + (readsAfter 3).input.ticks +
      (readsAfter 4).input.ticks + (readsAfter 5).input.ticks = 0x10 := by decide
  h ▸ .tick (.tick (.tick (.tick (.refl _) rfl rfl) rfl rfl) rfl rfl) rfl rfl

theorem witness_TimerReadsAreMonotonic :
    Attempt .startup (readsAfter 0) (readsAfter 1) (readsAfter 2) (readsAfter 3) (readsAfter 4) ∧
    Attempt .loop (readsAfter 4) (readsAfter 5) (readsAfter 6) (readsAfter 7) (readsAfter 8) ∧
    Elapses 0x10 (readsAfter 2) (readsAfter 6) ∧ (readsAfter 3).h1 = (readsAfter 3).h2 ∧
    (readsAfter 7).h1 = (readsAfter 7).h2 ∧
    attemptWindow (readsAfter 1) (readsAfter 2) < 2 ^ 32 ∧
    attemptWindow (readsAfter 5) (readsAfter 6) < 2 ^ 32 :=
  ⟨attempt_of (by decide) rfl rfl rfl rfl, attempt_of (by decide) rfl rfl rfl rfl, reads_elapse,
    by decide, by decide, by decide, by decide⟩

theorem witness_InitResult :
    (atLabel 0x10).cfg.initCycleStart = .timerRead ∧
    { Cfg.standard with initCycleStart := .zero }.initCycleStart = .zero := by decide

theorem witness_EnvEvalResult :
    ((looping 0x60).now = .written 0x64 ∧ (looping 0x60).cycleStart = .written 0x64) ∧
    (atLabel 0x60).Lacks .now := ⟨by decide, rfl⟩

theorem witness_PhaseAOnlyWithinThePeriod :
    ∃ t, exec .envEval (looping 0x60) = .next t ∧ t.ctl = encode .phaseA ∧ t ≠ looping 0x60 :=
  ⟨_, rfl, by decide, by decide⟩

/-- The three outcomes of a state whose operands are written, and an unwritten operand. -/
theorem witness_PhaseAResult :
    (let s := looping 0x70
     s.duty = .written 25 ∧ s.elapsed = .written 39999 ∧ s.ledOn = .written false ∧
       s.rising = .written true ∧ s.cycleCount = .written 0 ∧
       envWF s.cfg 25 true 0 = true ∧ (39999 < s.cfg.pwmPeriod.toNat * 25 / s.cfg.dutySteps.toNat)) ∧
    (let s := { looping 0x70 with elapsed := .written 40000 }
     s.elapsed = .written 40000 ∧
       ¬ (40000 < s.cfg.pwmPeriod.toNat * 25 / s.cfg.dutySteps.toNat)) ∧
    envWF Cfg.standard 0 false 0 = false ∧ envWF Cfg.standard 101 false 0 = false ∧
    (atLabel 0x70).Lacks .duty := by
  refine ⟨by decide, by decide, by decide, by decide, rfl⟩

theorem witness_PhaseANeedsTheWholeEnvelope :
    let s := { looping 0x70 with cycleCount := .unwritten }
    s.duty.Holds ∧ s.elapsed.Holds ∧ s.ledOn.Holds ∧ s.Lacks .cycleCount :=
  ⟨⟨_, rfl⟩, ⟨_, rfl⟩, ⟨_, rfl⟩, rfl⟩

/-- Both ends of the range of `duty`, and a pair in order. -/
theorem witness_OnTicksBounds :
    Cfg.standard.wf = true ∧ (0 : U32) ≤ Cfg.standard.dutySteps ∧
    (100 : U32) ≤ Cfg.standard.dutySteps ∧ (25 : U32) ≤ 26 := by decide

theorem witness_DesiredLevelFallsOnce :
    (39998 : U64) ≤ 39999 ∧ desiredLevel Cfg.standard 25 39999 = true ∧
    Cfg.standard.wf = true ∧ (159999 : U64) < Cfg.standard.pwmPeriod := by decide

theorem witness_GpioSetResult :
    (looping 0x91).input.busError = false ∧
    { looping 0x91 with env := [errorInput] }.input.busError = true := by decide

theorem witness_OnlyGpioSetWritesTheGpioRegister :
    (∃ t, exec .init (atLabel 0x10) = .next t) ∧ ∀ l, Instr.init ≠ .gpioSet l :=
  ⟨⟨_, rfl⟩, fun _ h => Instr.noConfusion h⟩

theorem witness_GpioSetIsEnteredOnlyOnAChange :
    ∃ t, exec .phaseA (looping 0x70) = .next t ∧ t.ctl = encode (.gpioSet true) ∧
      t ≠ looping 0x70 := ⟨_, rfl, by decide, by decide⟩

/-- A state of a run: the LED was written on, and the write that puts it off is next. -/
def ledOff : State :=
  { looping 0x90 with
    ledOn := .written true, gpio := 1, hist := [.reset, .wr 0x40001000 1] }

theorem witness_ledOff_inv : ledOff.Inv where
  cfgWF := by decide
  ready :=
    ⟨.gpioSet false, by decide,
      ⟨⟨⟨_, _, _, rfl, rfl, rfl, by decide⟩, ⟨_, rfl⟩, ⟨_, rfl⟩⟩, ⟨_, rfl⟩, rfl⟩, rfl⟩
  queue := ⟨by decide, fun _ h => nomatch h⟩
  mirror v hv := by
    have hw : ledOff.lastWrite = some 1 := by decide
    rw [hw] at hv
    cases hv
    exact ⟨true, rfl, by decide, rfl⟩
  notRefused := rfl
  faultsBus _ h := nomatch h
  stopBus _ h := nomatch h

/-- Also of EveryStepKeepsTheRunInvariant, OnlyABusErrorStopsARun and StepsFollowTheStepLanguage. -/
theorem witness_NoRedundantGpioWrite :
    ledOff.Inv ∧ ledOff.lastWrite = some 1 ∧ ledOff.ctl = encode (.gpioSet false) ∧
    decode ledOff.ctl = .step (.gpioSet false) ∧ ledOff.stop = none ∧
    ledOff.input.reset = false ∧ ledOff.input.busError = false ∧
    ∃ t, step ledOff = .next t ∧ t.stop = none :=
  ⟨witness_ledOff_inv, by decide, by decide, by decide, by decide, by decide, by decide, _, rfl, rfl⟩

/-- A bus error in a run: the case in which a run stops. -/
theorem witness_OnlyABusErrorStopsARun :
    ∃ t, step { ledOff with env := [errorInput] } = .next t ∧ t.stop ≠ none :=
  ⟨_, rfl, by decide⟩

/-- The premises of the five cases of a boundary event at the values where they meet (CYCLES_PER_STEP
2, DUTY_STEPS 100), of the fault, and of an unwritten operand. -/
theorem witness_PhaseBResult :
    (envWF Cfg.standard 25 true 0 = true ∧ (0 : U32).toNat + 1 < Cfg.standard.cyclesPerStep.toNat) ∧
    (envWF Cfg.standard 98 true 1 = true ∧ Cfg.standard.cyclesPerStep.toNat ≤ (1 : U32).toNat + 1 ∧
      (98 : U32).toNat + 1 < Cfg.standard.dutySteps.toNat) ∧
    (envWF Cfg.standard 99 true 1 = true ∧ Cfg.standard.cyclesPerStep.toNat ≤ (1 : U32).toNat + 1 ∧
      Cfg.standard.dutySteps.toNat ≤ (99 : U32).toNat + 1) ∧
    (envWF Cfg.standard 2 false 1 = true ∧ (2 : U32).toNat ≠ 1) ∧
    envWF Cfg.standard 1 false 1 = true ∧ envWF Cfg.standard 10 true 2 = false ∧
    (let s := boundaryAt 99 true 1
     s.now = .written 0x64 ∧ s.cycleCount = .written 1 ∧ s.duty = .written 99 ∧
       s.rising = .written true) ∧
    (atLabel 0x80).Lacks .now := by
  refine ⟨by decide, by decide, by decide, by decide, by decide, by decide, by decide, rfl⟩

/-- A boundary event with the count at its last value goes from these registers to those. -/
def BoundaryGoes (d : U32) (r : Bool) (d' : U32) (r' : Bool) : Prop :=
  let s := boundaryAt d r 1
  s.duty = .written d ∧ s.rising = .written r ∧
    ∃ t, exec .phaseB s = .next t ∧ t.duty = .written d' ∧ t.rising = .written r' ∧ t.duty ≠ s.duty

/-- Also of DutyChangesOnlyInADutyStep and DirectionFlipsExactlyAtTheExtremes: the flip at the peak,
the flip at the trough, and a duty step beside each that does not flip. -/
theorem witness_BoundaryQueuesItsEvents :
    BoundaryGoes 99 true 100 false ∧ BoundaryGoes 98 true 99 true ∧
    BoundaryGoes 1 false 0 true ∧ BoundaryGoes 2 false 1 false :=
  ⟨⟨rfl, rfl, _, rfl, by decide, by decide, by decide⟩,
   ⟨rfl, rfl, _, rfl, by decide, by decide, by decide⟩,
   ⟨rfl, rfl, _, rfl, by decide, by decide, by decide⟩,
   ⟨rfl, rfl, _, rfl, by decide, by decide, by decide⟩⟩

/-- Program P4's configuration: every boundary event is a duty step that flips. -/
def flipping : Cfg := { Cfg.standard with pwmPeriod := 4, dutySteps := 1, cyclesPerStep := 1 }

/-- A boundary event at the values INIT leaves, and the inputs of one iteration after it. -/
def trough : State :=
  { boundaryAt 0 true 0 with
    cfg := flipping
    env := [adv 0, adv 0, adv 8, adv 0, adv 0, adv 0, adv 0, adv 0] }

/-- The state after the first boundary event: the peak. -/
def peak : State := after trough

/-- The state before the second boundary event, one LOG_EMIT, one read and ENV_EVAL later. -/
def nextBoundary : State := after (after (after (after (after (after peak)))))

theorem trough_to_peak : Boundaries 1 trough peak :=
  .boundary (.refl _) rfl rfl rfl rfl

theorem trough_to_nextBoundary : Boundaries 1 trough nextBoundary :=
  .other (.other (.other (.other (.other (.other trough_to_peak
    rfl (by decide) (by decide) rfl) rfl (by decide) (by decide) rfl)
    rfl (by decide) (by decide) rfl) rfl (by decide) (by decide) rfl)
    rfl (by decide) (by decide) rfl) rfl (by decide) (by decide) rfl

/-- No boundary event yet, and the CYCLES_PER_STEP-th. -/
theorem witness_EveryLevelDwellsForItsCycles :
    flipping.wf = true ∧ trough.cfg = flipping ∧ trough.Envelope (0, true, 0) ∧
    envWF flipping 0 true 0 = true ∧ Boundaries 0 trough trough ∧
    0 < flipping.cyclesPerStep.toNat ∧ Boundaries 1 trough peak ∧
    1 = flipping.cyclesPerStep.toNat :=
  ⟨by decide, rfl, ⟨rfl, rfl, rfl⟩, by decide, .refl _, by decide, trough_to_peak, by decide⟩

/-- All five clauses, with `half = 1`: the peak, one period, a proper part of a period, and the two
boundary events that flip. -/
theorem witness_EnvelopeIsPeriodic :
    trough.cfg.wf = true ∧ trough.Envelope (0, true, 0) ∧
    trough.cfg.dutySteps.toNat * trough.cfg.cyclesPerStep.toNat = 1 ∧
    Boundaries 1 trough peak ∧ Boundaries (2 * 1) trough (after nextBoundary) ∧
    (Boundaries (1 - 1) trough trough ∧ trough.input.reset = false ∧
      trough.ctl = encode .phaseB ∧ step trough = .next peak ∧ peak.stop = none) ∧
    (Boundaries (2 * 1 - 1) trough nextBoundary ∧ nextBoundary.input.reset = false ∧
      nextBoundary.ctl = encode .phaseB ∧ step nextBoundary = .next (after nextBoundary) ∧
      (after nextBoundary).stop = none) :=
  ⟨by decide, ⟨rfl, rfl, rfl⟩, by decide, trough_to_peak,
    .boundary trough_to_nextBoundary rfl rfl rfl rfl,
    ⟨.refl _, rfl, rfl, rfl, rfl⟩, ⟨trough_to_nextBoundary, rfl, rfl, rfl, rfl⟩⟩

/-- An empty queue, a head of another kind, an accepted offer with one more event and without, and a
hold. -/
theorem witness_LogEmitResult :
    (looping 0xA2).logQ = [] ∧ LogKind.status ≠ .peak ∧
    (let s := { looping 0xA2 with logQ := [⟨.peak, 25, true⟩, ⟨.status, 25, true⟩] }
     s.logQ = ⟨.peak, 25, true⟩ :: [⟨.status, 25, true⟩] ∧ s.input.logAccept = true) ∧
    (let s := { looping 0xA2 with
       logQ := [⟨.peak, 25, true⟩], env := [{ EnvInput.quiet with logAccept := false }] }
     s.logQ = ⟨.peak, 25, true⟩ :: [] ∧ s.input.logAccept = false) := by decide

theorem witness_HoldChangesNothingOfTheBlock :
    let s := { looping 0xA2 with
      logQ := [⟨.peak, 25, true⟩], env := [{ adv 9 with logAccept := false }] }
    s.cfg.wf = true ∧ s.stop = none ∧ s.input.reset = false ∧ s.logQ = ⟨.peak, 25, true⟩ :: [] ∧
      s.ctl = encode (.logEmit .peak) ∧ s.input.logAccept = false := by decide

/-- Every envelope step completes somewhere. -/
theorem witness_EnvelopeStepsFrame :
    (∃ t, exec .init (atLabel 0x10) = .next t ∧ (atLabel 0x10).cfg.initCycleStart = .timerRead) ∧
    (∃ t, exec .envEval (looping 0x60) = .next t) ∧ (∃ t, exec .phaseA (looping 0x70) = .next t) ∧
    (∃ t, exec .phaseB (looping 0x80) = .next t) ∧
    (∃ t, exec (.gpioSet true) (looping 0x91) = .next t) ∧
    (∃ t, exec (.logEmit .peak) { looping 0xA2 with logQ := [⟨.peak, 25, true⟩] } = .next t) :=
  ⟨⟨_, rfl, rfl⟩, ⟨_, rfl⟩, ⟨_, rfl⟩, ⟨_, rfl⟩, ⟨_, rfl⟩, ⟨_, rfl⟩⟩

/-- A state whose registers are unwritten, and a started one. -/
theorem witness_EveryStepKeepsEnvelopeWellFormed :
    ((atLabel 0x10).EnvSound ∧ ∃ t, step (atLabel 0x10) = .next t) ∧
    ((boundaryAt 99 true 1).EnvSound ∧ ∃ t, step (boundaryAt 99 true 1) = .next t) :=
  ⟨⟨.inl ⟨rfl, rfl, rfl⟩, _, rfl⟩, ⟨.inr ⟨_, _, _, rfl, rfl, rfl, by decide⟩, _, rfl⟩⟩

theorem witness_RunInvariantHoldsAfterReset : flipping.wf = true := by decide

/-- A hold and a step that goes on, in the states of a run. -/
theorem witness_LogSequenceIsTheHistorysEvents :
    let s := { looping 0xA2 with logQ := [⟨.peak, 25, true⟩] }
    s.log = s.hist.filterMap HistEntry.event? ∧ ∃ t, step s = .next t := ⟨by decide, _, rfl⟩

end Sys2Proof.Tests
end

namespace Sys2Proof

/-! ## The checks of a configuration (spec/00_scope.md R8) -/

theorem Cfg.positive_iff (c : Cfg) : c.positive = true ↔
    1 ≤ c.pwmPeriod.toNat ∧ 1 ≤ c.dutySteps.toNat ∧ 1 ≤ c.cyclesPerStep.toNat := by
  simp only [Cfg.positive, Bool.and_eq_true, decide_eq_true_eq, and_assoc]

theorem Cfg.productFits_iff (c : Cfg) :
    c.productFits = true ↔ c.pwmPeriod.toNat * c.dutySteps.toNat ≤ 2 ^ 64 - 1 :=
  decide_eq_true_iff

theorem Cfg.aligned_iff (c : Cfg) :
    c.aligned = true ↔ 4 ∣ c.timerLoAddr ∧ 4 ∣ c.timerHiAddr ∧ 4 ∣ c.gpioAddr := by
  simp only [Cfg.aligned, Bool.and_eq_true, decide_eq_true_eq, and_assoc, Nat.dvd_iff_mod_eq_zero]

theorem Cfg.distinct_iff (c : Cfg) : c.distinct = true ↔
    c.timerLoAddr ≠ c.timerHiAddr ∧ c.timerLoAddr ≠ c.gpioAddr ∧ c.timerHiAddr ≠ c.gpioAddr := by
  simp only [Cfg.distinct, Bool.and_eq_true, decide_eq_true_eq, and_assoc]

theorem Cfg.inRange_iff (c : Cfg) : c.inRange = true ↔
    c.timerLoAddr < 2 ^ c.addrW ∧ c.timerHiAddr < 2 ^ c.addrW ∧ c.gpioAddr < 2 ^ c.addrW := by
  simp only [Cfg.inRange, Bool.and_eq_true, decide_eq_true_eq, and_assoc]

/-- Settles O11: each of the five checks says its conjunct of R8. -/
theorem configWellFormedIff : Obligations.ConfigWellFormedIff := by
  intro c
  rw [Cfg.wf]
  simp only [Bool.and_eq_true, c.positive_iff, c.productFits_iff,
    c.aligned_iff, c.distinct_iff, c.inRange_iff, and_assoc]

namespace Machine

/-! ## The meanings inverted: what a step that completes has read, and its next state -/

theorem execTrHi1_next {c : Ctx} {s t : State} (h : execTrHi1 c s = .next t) :
    s.input.busError = false ∧
      t = { s.record (.rd s.cfg.timerHiAddr (highHalf s.cnt)) with
            h1 := .written (highHalf s.cnt), ctl := encode (.trLo c) } := by
  obtain ⟨hb, v, hv, ht⟩ := memRead_next_iff.1 h
  cases (State.present_hi s).symm.trans hv
  cases ht
  exact ⟨hb, rfl⟩

/-- The address map may be ill-formed here, so the value is what the device presents. -/
theorem execTrLo_next {c : Ctx} {s t : State} (h : execTrLo c s = .next t) :
    s.input.busError = false ∧ ∃ v, s.present s.cfg.timerLoAddr = some v ∧
      t = { s.record (.rd s.cfg.timerLoAddr v) with
            lo := .written v, ctl := encode (.trHi2 c) } := by
  obtain ⟨hb, v, hv, ht⟩ := memRead_next_iff.1 h
  cases ht
  exact ⟨hb, v, hv, rfl⟩

theorem execTrHi2_next {c : Ctx} {s t : State} (h : execTrHi2 c s = .next t) :
    s.input.busError = false ∧
      t = { s.record (.rd s.cfg.timerHiAddr (highHalf s.cnt)) with
            h2 := .written (highHalf s.cnt), ctl := encode (.trCmp c) } := by
  obtain ⟨hb, v, hv, ht⟩ := memRead_next_iff.1 h
  cases (State.present_hi s).symm.trans hv
  cases ht
  exact ⟨hb, rfl⟩

theorem execTrCmp_next {c : Ctx} {s t : State} (h : execTrCmp c s = .next t) :
    ∃ h1 lo h2, s.h1 = .written h1 ∧ s.lo = .written lo ∧ s.h2 = .written h2 ∧
      ((h1 = h2 ∧ t = completeRead c (timerValue h1 lo) s) ∨ (h1 ≠ h2 ∧ t = retryRead c s)) := by
  simp only [execTrCmp, needReg_next_iff] at h
  obtain ⟨h1, hh1, lo, hlo, h2, hh2, ht⟩ := h
  refine ⟨h1, lo, h2, hh1, hlo, hh2, ?_⟩
  split at ht
  next heq => cases ht; exact .inl ⟨heq, rfl⟩
  next hne => cases ht; exact .inr ⟨hne, rfl⟩

theorem execEnvEval_next {s t : State} (h : execEnvEval s = .next t) :
    ∃ now start, s.now = .written now ∧ s.cycleStart = .written start ∧
      t = { s with
            elapsed := .written (now - start)
            ctl := if s.cfg.pwmPeriod ≤ now - start then encode .phaseB else encode .phaseA } := by
  simp only [execEnvEval, needReg_next_iff] at h
  obtain ⟨now, hnow, start, hstart, ht⟩ := h
  cases ht
  exact ⟨now, start, hnow, hstart, rfl⟩

theorem execPhaseA_next {s t : State} (h : execPhaseA s = .next t) :
    ∃ d e l r cc, s.duty = .written d ∧ s.elapsed = .written e ∧ s.ledOn = .written l ∧
      s.rising = .written r ∧ s.cycleCount = .written cc ∧ envWF s.cfg d r cc = true ∧
      t = { s with ctl := if desiredLevel s.cfg d e = l then encode (.trHi1 .loop)
                          else encode (.gpioSet (desiredLevel s.cfg d e)) } := by
  simp only [execPhaseA, needReg_next_iff] at h
  obtain ⟨d, hd, e, he, l, hl, r, hr, cc, hcc, ht⟩ := h
  split at ht
  next hwf => cases ht; exact ⟨d, e, l, r, cc, hd, he, hl, hr, hcc, hwf, rfl⟩
  next => cases ht

theorem execPhaseB_next {s t : State} (h : execPhaseB s = .next t) :
    ∃ now cc d r, s.now = .written now ∧ s.cycleCount = .written cc ∧ s.duty = .written d ∧
      s.rising = .written r ∧ envWF s.cfg d r cc = true ∧
      ∃ q, q = boundaryQueue s.input (flipEvent s.cfg d r cc) (nextDuty s.cfg d r cc)
            (nextRising s.cfg d r cc) ∧
        t = { s with
              cycleStart := .written now
              cycleCount := .written (nextCount s.cfg cc)
              duty := .written (nextDuty s.cfg d r cc)
              rising := .written (nextRising s.cfg d r cc)
              logQ := q, ctl := afterLog q } := by
  simp only [execPhaseB, needReg_next_iff] at h
  obtain ⟨now, hnow, cc, hcc, d, hd, r, hr, ht⟩ := h
  split at ht
  next hwf => cases ht; exact ⟨now, cc, d, r, hnow, hcc, hd, hr, hwf, _, rfl, rfl⟩
  next => cases ht

theorem execGpioSet_next {l : Bool} {s t : State} (h : execGpioSet l s = .next t) :
    s.input.busError = false ∧
      t = { (s.deviceWrite s.cfg.gpioAddr (ledWord l)).record (.wr s.cfg.gpioAddr (ledWord l)) with
            ledOn := .written l, ctl := encode (.trHi1 .loop) } := by
  obtain ⟨hb, ht⟩ := memWrite_next_iff.1 h
  cases ht
  exact ⟨hb, rfl⟩

/-- LOG takes the head of the queue, or the step holds. -/
theorem execLogEmit_next {k : LogKind} {s t : State} (h : execLogEmit k s = .next t) :
    ∃ ev rest, s.logQ = ev :: rest ∧ ev.kind = k ∧
      ((s.input.logAccept = true ∧
          t = { s.acceptLog ev with logQ := rest, ctl := afterLog rest }) ∨
        (s.input.logAccept = false ∧ t = s)) := by
  unfold execLogEmit at h
  split at h
  next => cases h
  next ev rest hq =>
    split at h
    next hk =>
      refine ⟨ev, rest, hq, hk, ?_⟩
      rcases logOffer_next_iff.1 h with ⟨ha, ht⟩ | ⟨ha, rfl⟩
      · cases ht; exact .inl ⟨ha, rfl⟩
      · exact .inr ⟨ha, rfl⟩
    next => cases h

/-! ## The history (spec/10_state.md R43) -/

@[simp] theorem completeRead_hist (c : Ctx) (v : U64) (s : State) :
    (completeRead c v s).hist = s.hist := by cases c <;> rfl

@[simp] theorem retryRead_hist (c : Ctx) (s : State) : (retryRead c s).hist = s.hist := rfl

theorem execInit_next_hist {s t : State} (h : execInit s = .next t) : t.hist = s.hist := by
  unfold execInit at h
  split at h
  next => cases h; rfl
  next => cases h; rfl

/-- What the meaning of `i` adds to the history when it completes on `s`. -/
def newEntries (i : Instr) (s : State) : List HistEntry :=
  match i with
  | .reset => [.reset]
  | .trHi1 _ | .trHi2 _ => [.rd s.cfg.timerHiAddr (highHalf s.cnt)]
  | .trLo _ => ((s.present s.cfg.timerLoAddr).map (.rd s.cfg.timerLoAddr)).toList
  | .gpioSet l => [.wr s.cfg.gpioAddr (ledWord l)]
  | .logEmit _ => if s.input.logAccept then (s.logQ.head?.map .log).toList else []
  | .init | .trCmp _ | .envEval | .phaseA | .phaseB => []

/-- A meaning that completes appends exactly its `newEntries`. -/
theorem exec_next_hist {i : Instr} {s t : State} (h : exec i s = .next t) :
    t.hist = s.hist ++ newEntries i s := by
  cases i with
  | reset => cases h; rfl
  | init => simpa [newEntries] using execInit_next_hist h
  | trHi1 c => obtain ⟨-, rfl⟩ := execTrHi1_next h; rfl
  | trLo c => obtain ⟨-, v, hv, rfl⟩ := execTrLo_next h; simp [newEntries, hv]
  | trHi2 c => obtain ⟨-, rfl⟩ := execTrHi2_next h; rfl
  | trCmp c =>
    obtain ⟨h1, lo, h2, -, -, -, ⟨-, rfl⟩ | ⟨-, rfl⟩⟩ := execTrCmp_next h
    · simp [newEntries]
    · simp [newEntries]
  | envEval => obtain ⟨now, start, -, -, rfl⟩ := execEnvEval_next h; simp [newEntries]
  | phaseA =>
    obtain ⟨d, e, l, r, cc, -, -, -, -, -, -, rfl⟩ := execPhaseA_next h
    simp [newEntries]
  | phaseB =>
    obtain ⟨now, cc, d, r, -, -, -, -, -, q, -, rfl⟩ := execPhaseB_next h
    simp [newEntries]
  | gpioSet l => obtain ⟨-, rfl⟩ := execGpioSet_next h; rfl
  | logEmit k =>
    obtain ⟨ev, rest, hq, -, ⟨ha, rfl⟩ | ⟨ha, rfl⟩⟩ := execLogEmit_next h
    · simp [newEntries, hq, ha]
    · simp [newEntries, ha]

theorem newEntries_length_le_one (i : Instr) (s : State) : (newEntries i s).length ≤ 1 := by
  cases i with
  | trLo c => exact Option.length_toList_le
  | logEmit k =>
    rw [newEntries]
    split
    · exact Option.length_toList_le
    · exact Nat.zero_le 1
  | _ => simp [newEntries]

theorem Fault.histEntries_length_le_one (f : Fault) : f.histEntries.length ≤ 1 := by
  cases f with
  | busError w a d => cases d <;> simp
  | envInvariant d r cc => simp
  | unwrittenRead r => simp

/-- Settles O17: a completed meaning appends its `newEntries`, a fault the failed access of a bus
error, RESET its own entry, and a refusal nothing. -/
theorem stepRecordsAtMostOneEvent : Obligations.StepRecordsAtMostOneEvent := by
  intro s t h
  obtain ⟨-, ⟨-, rfl⟩ | ⟨-, -, hcase⟩⟩ := step_next_cases h
  · exact ⟨[.reset], rfl, Nat.le_refl 1⟩
  · rcases hcase with ⟨i, u, -, -, hu, rfl⟩ | ⟨i, f, -, -, -, rfl⟩ | ⟨i, r, -, -, -, rfl⟩ | ⟨-, rfl⟩
    · exact ⟨newEntries i s.advanceCnt, exec_next_hist hu, newEntries_length_le_one i s.advanceCnt⟩
    · exact ⟨f.histEntries, rfl, f.histEntries_length_le_one⟩
    · exact ⟨[], (List.append_nil s.hist).symm, Nat.zero_le 1⟩
    · exact ⟨[], (List.append_nil s.hist).symm, Nat.zero_le 1⟩

/-! ## PHASE_A on unwritten registers (spec/10_state.md R36, spec/60_exceptions.md R183) -/

/-- PHASE_A reads its three listed operands before `rising`. -/
theorem exec_phaseA_rising_unwritten {s : State} (hd : s.duty.Holds) (he : s.elapsed.Holds)
    (hl : s.ledOn.Holds) (hr : s.Lacks .rising) :
    exec .phaseA s = .fault (.unwrittenRead .rising) := by
  obtain ⟨d, hd⟩ := hd
  obtain ⟨e, he⟩ := he
  obtain ⟨l, hl⟩ := hl
  have hr : s.rising = .unwritten := hr
  simp only [exec, execPhaseA, hd, he, hl, hr, needReg_written, needReg_unwritten]

/-- PHASE_A reads `cycle_count` last. -/
theorem exec_phaseA_cycleCount_unwritten {s : State} (hd : s.duty.Holds) (he : s.elapsed.Holds)
    (hl : s.ledOn.Holds) (hr : s.rising.Holds) (hc : s.Lacks .cycleCount) :
    exec .phaseA s = .fault (.unwrittenRead .cycleCount) := by
  obtain ⟨d, hd⟩ := hd
  obtain ⟨e, he⟩ := he
  obtain ⟨l, hl⟩ := hl
  obtain ⟨r, hr⟩ := hr
  have hc : s.cycleCount = .unwritten := hc
  simp only [exec, execPhaseA, hd, he, hl, hr, hc, needReg_written, needReg_unwritten]

/-- Settles O37: `rising` is named when it is unwritten, and `cycle_count` when only that one is. -/
theorem phaseANeedsTheWholeEnvelope : Obligations.PhaseANeedsTheWholeEnvelope := by
  intro s hd he hl hlacks
  cases hr : s.rising with
  | unwritten =>
    exact ⟨.rising, by decide, hr, exec_phaseA_rising_unwritten hd he hl hr⟩
  | written r =>
    have hc : s.Lacks .cycleCount :=
      hlacks.resolve_left fun h => nomatch hr.symm.trans h
    exact ⟨.cycleCount, by decide, hc, exec_phaseA_cycleCount_unwritten hd he hl ⟨r, hr⟩ hc⟩

end Machine

end Sys2Proof

namespace Sys2Proof

theorem Instr.mayBeHeld_iff (i : Instr) : i.mayBeHeld = true ↔ i ≠ .reset := by
  cases i <;> simp [Instr.mayBeHeld]

namespace Machine

/-! ## What no meaning writes (spec/10_state.md R20, R38) -/

/-- The registers INIT writes whatever the configuration asks of `cycle_start` (R130). -/
def initRegisters (s : State) : State :=
  { s with
    duty := .written 0, rising := .written true, cycleCount := .written 0
    ledOn := .written false, trRetries := .written 0
    logQ := bannerQueue s.input.banner }

theorem execInit_next {s t : State} (h : execInit s = .next t) :
    (s.cfg.initCycleStart = .timerRead ∧
        t = { initRegisters s with ctl := encode (.trHi1 .startup) }) ∨
      (s.cfg.initCycleStart = .zero ∧
        t = { initRegisters s with
              cycleStart := .written 0, ctl := afterLog (bannerQueue s.input.banner) }) := by
  unfold execInit at h
  split at h
  next hc => cases h; exact .inl ⟨hc, rfl⟩
  next hc => cases h; exact .inr ⟨hc, rfl⟩

/-- The fields that are the same in `t` as in `s` when a meaning leads from `s` to `t`. -/
structure KeptByMeanings (s t : State) : Prop where
  cfg : t.cfg = s.cfg
  cnt : t.cnt = s.cnt
  faults : t.faults = s.faults
  refused : t.refused = s.refused
  env : t.env = s.env
  draws : t.draws = s.draws

theorem completeRead_kept (c : Ctx) (v : U64) (s : State) :
    KeptByMeanings s (completeRead c v s) := by
  cases c with
  | startup => exact ⟨rfl, rfl, rfl, rfl, rfl, rfl⟩
  | loop => exact ⟨rfl, rfl, rfl, rfl, rfl, rfl⟩

/-- No meaning writes the configuration, `C`, the sticky records or the environment's choices. -/
theorem exec_next_kept {i : Instr} {s t : State} (h : exec i s = .next t) :
    KeptByMeanings s t := by
  cases i with
  | reset => cases h; exact ⟨rfl, rfl, rfl, rfl, rfl, rfl⟩
  | init =>
    obtain ⟨-, rfl⟩ | ⟨-, rfl⟩ := execInit_next h
    · exact ⟨rfl, rfl, rfl, rfl, rfl, rfl⟩
    · exact ⟨rfl, rfl, rfl, rfl, rfl, rfl⟩
  | trHi1 c => obtain ⟨-, rfl⟩ := execTrHi1_next h; exact ⟨rfl, rfl, rfl, rfl, rfl, rfl⟩
  | trLo c => obtain ⟨-, v, -, rfl⟩ := execTrLo_next h; exact ⟨rfl, rfl, rfl, rfl, rfl, rfl⟩
  | trHi2 c => obtain ⟨-, rfl⟩ := execTrHi2_next h; exact ⟨rfl, rfl, rfl, rfl, rfl, rfl⟩
  | trCmp c =>
    obtain ⟨h1, lo, h2, -, -, -, ⟨-, rfl⟩ | ⟨-, rfl⟩⟩ := execTrCmp_next h
    · exact completeRead_kept c (timerValue h1 lo) s
    · exact ⟨rfl, rfl, rfl, rfl, rfl, rfl⟩
  | envEval =>
    obtain ⟨now, start, -, -, rfl⟩ := execEnvEval_next h
    exact ⟨rfl, rfl, rfl, rfl, rfl, rfl⟩
  | phaseA =>
    obtain ⟨d, e, l, r, cc, -, -, -, -, -, -, rfl⟩ := execPhaseA_next h
    exact ⟨rfl, rfl, rfl, rfl, rfl, rfl⟩
  | phaseB =>
    obtain ⟨now, cc, d, r, -, -, -, -, -, q, -, rfl⟩ := execPhaseB_next h
    exact ⟨rfl, rfl, rfl, rfl, rfl, rfl⟩
  | gpioSet l => obtain ⟨-, rfl⟩ := execGpioSet_next h; exact ⟨rfl, rfl, rfl, rfl, rfl, rfl⟩
  | logEmit k =>
    obtain ⟨ev, rest, -, -, ⟨-, rfl⟩ | ⟨-, rfl⟩⟩ := execLogEmit_next h
    · exact ⟨rfl, rfl, rfl, rfl, rfl, rfl⟩
    · exact ⟨rfl, rfl, rfl, rfl, rfl, rfl⟩

/-- Settles O18: RESET, a recorded fault and a refusal leave `cfg`, and so does every meaning. -/
theorem noStepWritesTheConfiguration : Obligations.NoStepWritesTheConfiguration := by
  intro s t h
  obtain ⟨-, ⟨-, rfl⟩ | ⟨-, -, hcase⟩⟩ := step_next_cases h
  · rfl
  · rcases hcase with ⟨i, u, -, -, hu, rfl⟩ | ⟨i, f, -, -, -, rfl⟩ | ⟨i, r, -, -, -, rfl⟩ | ⟨-, rfl⟩
    · exact (exec_next_kept hu).cfg
    · rfl
    · rfl
    · rfl

/-- Without RESET, `C` after a step is `C` after its advance. -/
theorem step_next_cnt {s t : State} (hr : s.input.reset = false) (h : step s = .next t) :
    t.cnt = s.advanceCnt.cnt := by
  obtain ⟨-, ⟨hr', -⟩ | ⟨-, -, hcase⟩⟩ := step_next_cases h
  · exact absurd (hr.symm.trans hr') Bool.false_ne_true
  · rcases hcase with ⟨i, u, -, -, hu, rfl⟩ | ⟨i, f, -, -, -, rfl⟩ | ⟨i, r, -, -, -, rfl⟩ | ⟨-, rfl⟩
    · exact (exec_next_kept hu).cnt
    · rfl
    · rfl
    · rfl

/-- Settles O19: a RESET step has no advance, and after any other advance no meaning writes `C`. -/
theorem counterChangesOnlyByItsAdvance : Obligations.CounterChangesOnlyByItsAdvance := by
  refine ⟨fun i s t h => (exec_next_kept h).cnt, fun s t h => ?_⟩
  split
  next hr =>
    obtain ⟨-, ⟨-, rfl⟩ | ⟨hr', -⟩⟩ := step_next_cases h
    · rfl
    · exact absurd (hr'.symm.trans hr) Bool.false_ne_true
  next hr => exact step_next_cnt (Bool.eq_false_of_not_eq_true hr) h

/-! ## The frames of the envelope steps (spec/10_state.md R21) -/

/-- What a device presents depends on the address map and `C` alone. -/
theorem State.present_congr {s t : State} (hcfg : t.cfg = s.cfg) (hcnt : t.cnt = s.cnt) (a : Nat) :
    t.present a = s.present a := by
  simp only [State.present, hcfg, hcnt]

/-- Settles O53: each step's next state, as its inversion gives it, is `s` but for the written
fields; a read presents what it did, because no meaning writes the address map or `C`. -/
theorem envelopeStepsFrame : Obligations.EnvelopeStepsFrame := by
  intro s t
  refine ⟨fun h => ?init, fun h => ?envEval, fun h => ?phaseA, fun h => ?phaseB,
    fun l h => ⟨?gpioSet, fun a _ => ?reads⟩, fun k h => ?logEmit⟩
  case init =>
    obtain ⟨-, rfl⟩ | ⟨hzero, rfl⟩ := execInit_next h
    · exact ⟨rfl, fun _ => rfl⟩
    · exact ⟨rfl, fun hread => nomatch hzero.symm.trans hread⟩
  case envEval => obtain ⟨now, start, -, -, rfl⟩ := execEnvEval_next h; rfl
  case phaseA => obtain ⟨d, e, l, r, cc, -, -, -, -, -, -, rfl⟩ := execPhaseA_next h; rfl
  case phaseB => obtain ⟨now, cc, d, r, -, -, -, -, -, q, -, rfl⟩ := execPhaseB_next h; rfl
  case gpioSet => obtain ⟨-, rfl⟩ := execGpioSet_next h; rfl
  case reads => exact State.present_congr (exec_next_kept h).cfg (exec_next_kept h).cnt a
  case logEmit =>
    obtain ⟨ev, rest, -, -, ⟨-, rfl⟩ | ⟨-, rfl⟩⟩ := execLogEmit_next h
    · rfl
    · rfl

/-! ## LOG and the history (spec/10_state.md R42, R43) -/

/-- The log events among some entries of the history, in order. -/
def logEvents (es : List HistEntry) : List LogEvent := es.filterMap HistEntry.event?

@[simp] theorem logEvents_append (es fs : List HistEntry) :
    logEvents (es ++ fs) = logEvents es ++ logEvents fs :=
  List.filterMap_append

@[simp] theorem Fault.logEvents_histEntries (f : Fault) : logEvents f.histEntries = [] := by
  cases f with
  | busError w a d =>
    cases d with
    | none => rfl
    | some v => rfl
  | envInvariant d r cc => rfl
  | unwrittenRead r => rfl

@[simp] theorem completeRead_log (c : Ctx) (v : U64) (s : State) :
    (completeRead c v s).log = s.log := by cases c <;> rfl

/-- A meaning that completes adds to LOG exactly the log events it adds to the history. -/
theorem exec_next_log {i : Instr} {s t : State} (h : exec i s = .next t) :
    t.log = s.log ++ logEvents (newEntries i s) := by
  have unchanged : s.log = s.log ++ [] := (List.append_nil s.log).symm
  cases i with
  | reset => cases h; exact unchanged
  | init =>
    obtain ⟨-, rfl⟩ | ⟨-, rfl⟩ := execInit_next h
    · exact unchanged
    · exact unchanged
  | trHi1 c => obtain ⟨-, rfl⟩ := execTrHi1_next h; exact unchanged
  | trLo c =>
    obtain ⟨-, v, hv, rfl⟩ := execTrLo_next h
    simp [newEntries, hv, logEvents, HistEntry.event?]
  | trHi2 c => obtain ⟨-, rfl⟩ := execTrHi2_next h; exact unchanged
  | trCmp c =>
    obtain ⟨h1, lo, h2, -, -, -, ⟨-, rfl⟩ | ⟨-, rfl⟩⟩ := execTrCmp_next h
    · exact (completeRead_log c _ s).trans unchanged
    · exact unchanged
  | envEval =>
    obtain ⟨now, start, -, -, rfl⟩ := execEnvEval_next h; exact unchanged
  | phaseA =>
    obtain ⟨d, e, l, r, cc, -, -, -, -, -, -, rfl⟩ := execPhaseA_next h; exact unchanged
  | phaseB =>
    obtain ⟨now, cc, d, r, -, -, -, -, -, q, -, rfl⟩ := execPhaseB_next h; exact unchanged
  | gpioSet l => obtain ⟨-, rfl⟩ := execGpioSet_next h; exact unchanged
  | logEmit k =>
    obtain ⟨ev, rest, hq, -, ⟨ha, rfl⟩ | ⟨ha, rfl⟩⟩ := execLogEmit_next h
    · simp [newEntries, hq, ha, logEvents, HistEntry.event?]
    · simp [newEntries, ha, logEvents]

/-- Whatever a step appends to the history, LOG has accepted the log events of it. -/
theorem step_next_hist_log {s t : State} (h : step s = .next t) :
    ∃ es, t.hist = s.hist ++ es ∧ t.log = s.log ++ logEvents es := by
  obtain ⟨-, ⟨-, rfl⟩ | ⟨-, -, hcase⟩⟩ := step_next_cases h
  · exact ⟨[.reset], rfl, (List.append_nil s.log).symm⟩
  · rcases hcase with ⟨i, u, -, -, hu, rfl⟩ | ⟨i, f, -, -, -, rfl⟩ | ⟨i, r, -, -, -, rfl⟩ | ⟨-, rfl⟩
    · exact ⟨newEntries i s.advanceCnt, exec_next_hist hu, exec_next_log hu⟩
    · exact ⟨f.histEntries, rfl, by simp⟩
    · exact ⟨[], (List.append_nil s.hist).symm, (List.append_nil s.log).symm⟩
    · exact ⟨[], (List.append_nil s.hist).symm, (List.append_nil s.log).symm⟩

/-- Settles O59: both sequences are empty after RESET, and a step appends the same events to both. -/
theorem logSequenceIsTheHistorysEvents : Obligations.LogSequenceIsTheHistorysEvents := by
  refine ⟨fun cfg c g => rfl, fun s t hlog h => ?_⟩
  change s.log = logEvents s.hist at hlog
  change t.log = logEvents t.hist
  obtain ⟨es, hhist, hnew⟩ := step_next_hist_log h
  rw [hnew, hhist, hlog, logEvents_append]

/-! ## The label `ctl` holds (spec/10_state.md R31) -/

/-- Settles O7: the label is one `ctl` may hold, so `step` settles its meaning's answer. -/
theorem stepRunsTheLabelInCtl : Obligations.StepRunsTheLabelInCtl := by
  intro s i hwf hreset hstop hdecode hi
  have hstep : step s = s.advanceCnt.settle (exec i s.advanceCnt) :=
    step_of_run (State.select_step hwf hreset hstop hdecode (i.mayBeHeld_iff.2 hi))
  refine ⟨fun t ht => ?_, fun f hf => ?_, fun r hr => ?_⟩
  · rw [hstep, ht, State.settle_next]
  · rw [hstep, hf, State.settle_fault]
  · rw [hstep, hr, State.settle_refused]

/-! ## A failed comparison (spec/10_state.md R30) -/

/-- TR_CMP reads the three latches and nothing else before it retries. -/
theorem exec_trCmp_retry {c : Ctx} {s : State} {a lo b : U32} (h1 : s.h1 = .written a)
    (hlo : s.lo = .written lo) (h2 : s.h2 = .written b) (hne : a ≠ b) :
    exec (.trCmp c) s = .next (retryRead c s) := by
  simp only [exec, execTrCmp, h1, hlo, h2, needReg_written, if_neg hne]

/-- Settles O25: the retry does not read `tr_retries`, and counts on nothing when it is unwritten. -/
theorem retryNeedsNoGhostCount : Obligations.RetryNeedsNoGhostCount := by
  intro c s a lo b h1 hlo h2 hne
  rw [exec_trCmp_retry h1 hlo h2 hne]
  refine ⟨fun hghost => ?_, s.trRetries.map (· + 1), rfl⟩
  simp only [retryRead, hghost, Cell.map_unwritten]

/-! ## EnvWF (spec/10_state.md R36) -/

/-- Settles O35: the last conjunct of the check is R36's third or fourth condition, by the direction. -/
theorem envelopeWellFormedIff : Obligations.EnvelopeWellFormedIff := by
  intro cfg duty rising cc
  simp only [envWF, Bool.and_eq_true, decide_eq_true_eq, and_assoc, BitVec.le_def, BitVec.lt_def]
  cases rising with
  | false => simp
  | true => simp

end Machine

end Sys2Proof

namespace Sys2Proof

/-! ## A held LOG_EMIT (spec/20_memory.md R60) -/

theorem decode_encode_logEmit (k : LogKind) :
    decode (encode (.logEmit k)) = .step (.logEmit k) := by
  cases k with
  | banner => rfl
  | status => rfl
  | peak => rfl
  | trough => rfl

namespace Machine

/-- A LOG_EMIT of the queue's head makes exactly one offer to LOG. -/
theorem exec_logEmit_head {ev : LogEvent} {rest : List LogEvent} {s : State}
    (hq : s.logQ = ev :: rest) :
    exec (.logEmit ev.kind) s =
      logOffer ev s fun t => .next { t with logQ := rest, ctl := afterLog rest } := by
  simp only [exec, execLogEmit, hq, if_true]

/-- Settles O52: `ctl` names the LOG_EMIT of the head, whose offer holds in the advanced state. -/
theorem holdChangesNothingOfTheBlock : Obligations.HoldChangesNothingOfTheBlock := by
  intro s ev rest hwf hstop hreset hq hctl hheld
  have hdecode : decode s.ctl = .step (.logEmit ev.kind) := by
    rw [hctl, decode_encode_logEmit]
  have hhold : exec (.logEmit ev.kind) s.advanceCnt = .next s.advanceCnt := by
    rw [exec_logEmit_head (s := s.advanceCnt) hq, logOffer_held (s := s.advanceCnt) hheld]
  exact (stepRunsTheLabelInCtl s _ hwf hreset hstop hdecode Instr.noConfusion).1 _ hhold

end Machine

end Sys2Proof

namespace Sys2Proof

/-! ## The two fields of a label (spec/30_encoding.md R80) -/

@[simp] theorem opField_append (op arg : BitVec 4) : opField (op ++ arg) = op :=
  BitVec.extractLsb'_append_eq_left

@[simp] theorem argField_append (op arg : BitVec 4) : argField (op ++ arg) = arg :=
  BitVec.extractLsb'_append_eq_right

theorem opField_append_argField (w : Label) : opField w ++ argField w = w :=
  (BitVec.extractLsb'_append_extractLsb'_eq_extractLsb' (x := w) (len₁ := 4) (len₂ := 4) rfl).trans
    BitVec.extractLsb'_eq_self

theorem append_of_fields {w : Label} {op : Nat} {arg : BitVec 4} (hop : (opField w).toNat = op)
    (harg : argField w = arg) : BitVec.ofNat 4 op ++ arg = w := by
  rw [← hop, ← harg, BitVec.ofNat_toNat, BitVec.setWidth_eq, opField_append_argField]

/-! ## The four forms of argument (spec/30_encoding.md R82, R87) -/

/-- `d` is what a used `op` makes of `w` when its argument bits are those that `argOf` gives to the
arguments of `mk`: the values below `bound` (R82), and R83's second case at every other. -/
structure DecodesArg {α : Type} (w : Label) (argOf : α → BitVec 4) (bound : Nat) (mk : α → Instr)
    (d : Decoded) : Prop where
  legal : ∀ a, argField w = argOf a → d = .step (mk a)
  below : (argField w).toNat < bound → ∃ a, argField w = argOf a
  above : bound ≤ (argField w).toNat → d = .reserved (.argBits (opField w) (argField w))

theorem DecodesArg.of_step {α : Type} {w : Label} {argOf : α → BitVec 4} {bound : Nat}
    {mk : α → Instr} {d : Decoded} (hd : DecodesArg w argOf bound mk d) {i : Instr}
    (h : d = .step i) : ∃ a, argField w = argOf a ∧ mk a = i := by
  rcases Nat.lt_or_ge (argField w).toNat bound with hlt | hge
  · obtain ⟨a, ha⟩ := hd.below hlt
    exact ⟨a, ha, Decoded.step.inj ((hd.legal a ha).symm.trans h)⟩
  · cases (hd.above hge).symm.trans h

theorem DecodesArg.reserved_iff {α : Type} {w : Label} {argOf : α → BitVec 4} {bound : Nat}
    {mk : α → Instr} {d : Decoded} (hd : DecodesArg w argOf bound mk d) :
    (∃ why, d = .reserved why) ↔ bound ≤ (argField w).toNat := by
  refine ⟨fun ⟨why, hwhy⟩ => Nat.le_of_not_lt fun hlt => ?_, fun hge => ⟨_, hd.above hge⟩⟩
  obtain ⟨a, ha⟩ := hd.below hlt
  cases (hd.legal a ha).symm.trans hwhy

/-- A step read from such a `w` has the label `w`, when `op` is what the encoder writes for `mk`. -/
theorem DecodesArg.encode_eq {α : Type} {w : Label} {argOf : α → BitVec 4} {bound op : Nat}
    {mk : α → Instr} {d : Decoded} (hd : DecodesArg w argOf bound mk d)
    (hop : (opField w).toNat = op) (hmk : ∀ a, encode (mk a) = BitVec.ofNat 4 op ++ argOf a)
    {i : Instr} (h : d = .step i) : encode i = w := by
  obtain ⟨a, harg, rfl⟩ := hd.of_step h
  rw [hmk, append_of_fields hop harg]

theorem decodePlain_decodesArg (w : Label) (i : Instr) :
    DecodesArg w (fun _ : Unit => 0b0000#4) 1 (fun _ => i) (decodePlain w i) where
  legal _ h := by rw [decodePlain, h]; rfl
  below h := ⟨(), BitVec.eq_of_toNat_eq (Nat.lt_one_iff.1 h)⟩
  above h := by
    unfold decodePlain
    split
    next h0 => omega
    next => rfl

theorem decodeCtx_decodesArg (w : Label) (mk : Ctx → Instr) :
    DecodesArg w Ctx.arg 2 mk (decodeCtx w mk) where
  legal c h := by rw [decodeCtx, h]; cases c <;> rfl
  below h := by
    have hcase : (argField w).toNat = 0 ∨ (argField w).toNat = 1 := by omega
    rcases hcase with h0 | h1
    · exact ⟨.startup, BitVec.eq_of_toNat_eq h0⟩
    · exact ⟨.loop, BitVec.eq_of_toNat_eq h1⟩
  above h := by
    unfold decodeCtx
    split
    next h0 => omega
    next h1 => omega
    next => rfl

theorem decodeLevel_decodesArg (w : Label) (mk : Bool → Instr) :
    DecodesArg w levelArg 2 mk (decodeLevel w mk) where
  legal l h := by rw [decodeLevel, h]; cases l <;> rfl
  below h := by
    have hcase : (argField w).toNat = 0 ∨ (argField w).toNat = 1 := by omega
    rcases hcase with h0 | h1
    · exact ⟨false, BitVec.eq_of_toNat_eq h0⟩
    · exact ⟨true, BitVec.eq_of_toNat_eq h1⟩
  above h := by
    unfold decodeLevel
    split
    next h0 => omega
    next h1 => omega
    next => rfl

theorem decodeKind_decodesArg (w : Label) (mk : LogKind → Instr) :
    DecodesArg w LogKind.arg 4 mk (decodeKind w mk) where
  legal k h := by rw [decodeKind, h]; cases k <;> rfl
  below h := by
    have hcase : (argField w).toNat = 0 ∨ (argField w).toNat = 1 ∨ (argField w).toNat = 2 ∨
        (argField w).toNat = 3 := by omega
    rcases hcase with h0 | h1 | h2 | h3
    · exact ⟨.banner, BitVec.eq_of_toNat_eq h0⟩
    · exact ⟨.status, BitVec.eq_of_toNat_eq h1⟩
    · exact ⟨.peak, BitVec.eq_of_toNat_eq h2⟩
    · exact ⟨.trough, BitVec.eq_of_toNat_eq h3⟩
  above h := by
    unfold decodeKind
    split
    next h0 => omega
    next h1 => omega
    next h2 => omega
    next h3 => omega
    next => rfl

/-! ## The label map, read both ways (spec/30_encoding.md R81, R83, R84) -/

/-- Settles O1: the encoder puts a step's `op` and argument bits into the two fields that the
decoder reads. -/
theorem labelDecodesToItsStep : Obligations.LabelDecodesToItsStep := by
  intro i
  cases i with
  | reset => rfl
  | init => rfl
  | envEval => rfl
  | phaseA => rfl
  | phaseB => rfl
  | trHi1 c =>
    rw [encode, decode, opField_append]
    exact (decodeCtx_decodesArg _ _).legal c (argField_append _ _)
  | trLo c =>
    rw [encode, decode, opField_append]
    exact (decodeCtx_decodesArg _ _).legal c (argField_append _ _)
  | trHi2 c =>
    rw [encode, decode, opField_append]
    exact (decodeCtx_decodesArg _ _).legal c (argField_append _ _)
  | trCmp c =>
    rw [encode, decode, opField_append]
    exact (decodeCtx_decodesArg _ _).legal c (argField_append _ _)
  | gpioSet l =>
    rw [encode, decode, opField_append]
    exact (decodeLevel_decodesArg _ _).legal l (argField_append _ _)
  | logEmit k => exact decode_encode_logEmit k

/-- Settles O2: a row of the label map fixes `op`, and the form of its argument fixes `arg`. -/
theorem decodedStepHasThatLabel : Obligations.DecodedStepHasThatLabel := by
  intro w i h
  unfold decode at h
  split at h
  next hop => exact (decodePlain_decodesArg w _).encode_eq hop (fun _ => rfl) h
  next hop => exact (decodePlain_decodesArg w _).encode_eq hop (fun _ => rfl) h
  next hop => exact (decodeCtx_decodesArg w _).encode_eq hop (fun _ => rfl) h
  next hop => exact (decodeCtx_decodesArg w _).encode_eq hop (fun _ => rfl) h
  next hop => exact (decodeCtx_decodesArg w _).encode_eq hop (fun _ => rfl) h
  next hop => exact (decodeCtx_decodesArg w _).encode_eq hop (fun _ => rfl) h
  next hop => exact (decodePlain_decodesArg w _).encode_eq hop (fun _ => rfl) h
  next hop => exact (decodePlain_decodesArg w _).encode_eq hop (fun _ => rfl) h
  next hop => exact (decodePlain_decodesArg w _).encode_eq hop (fun _ => rfl) h
  next hop => exact (decodeLevel_decodesArg w _).encode_eq hop (fun _ => rfl) h
  next hop => exact (decodeKind_decodesArg w _).encode_eq hop (fun _ => rfl) h
  next => cases h

/-- The decoder answers "reserved" on R83's two cases and on no other label. -/
theorem decode_reserved_iff (w : Label) :
    (∃ why, decode w = .reserved why) ↔ reservedLabel w = true := by
  have plain := fun i => (decodePlain_decodesArg w i).reserved_iff
  have ctx := fun mk => (decodeCtx_decodesArg w mk).reserved_iff
  have level := fun mk => (decodeLevel_decodesArg w mk).reserved_iff
  have kind := fun mk => (decodeKind_decodesArg w mk).reserved_iff
  unfold decode
  split
  next hop => simp [reservedLabel, hop, plain, Nat.one_le_iff_ne_zero]
  next hop => simp [reservedLabel, hop, plain, Nat.one_le_iff_ne_zero]
  next hop => simp [reservedLabel, hop, ctx]
  next hop => simp [reservedLabel, hop, ctx]
  next hop => simp [reservedLabel, hop, ctx]
  next hop => simp [reservedLabel, hop, ctx]
  next hop => simp [reservedLabel, hop, plain, Nat.one_le_iff_ne_zero]
  next hop => simp [reservedLabel, hop, plain, Nat.one_le_iff_ne_zero]
  next hop => simp [reservedLabel, hop, plain, Nat.one_le_iff_ne_zero]
  next hop => simp [reservedLabel, hop, level]
  next hop => simp [reservedLabel, hop, kind]
  next =>
    have hop : 0b1011 ≤ (opField w).toNat := by
      simp only [imp_false] at *
      omega
    simp [reservedLabel, hop]

/-- A range of `m * n` numbers, counted in `n` rows of `m`. -/
theorem length_filter_range_mul (p : Nat → Bool) (m n : Nat) :
    ((List.range (m * n)).filter p).length =
      ((List.range n).map fun i => ((List.range m).filter fun j => p (m * i + j)).length).sum := by
  induction n with
  | zero => rfl
  | succ n ih =>
    rw [Nat.mul_succ, List.range_add, List.filter_append, List.length_append, ih, List.range_succ,
      List.map_append, List.sum_append, List.filter_map, List.length_map, List.map_singleton,
      List.sum_singleton]
    rfl

/-- Settles O3: the form of each row's argument says from which value on its labels are reserved;
the bytes are counted one `op` at a time. -/
theorem rejectedLabelsAreTheReservedOnes : Obligations.RejectedLabelsAreTheReservedOnes :=
  ⟨decode_reserved_iff, (length_filter_range_mul _ 16 16).trans (by decide)⟩

/-- Settles O4: each byte is the label of the step it names, and `1011` is an unused `op`. -/
theorem handWrittenLabelsDecode : Obligations.HandWrittenLabelsDecode :=
  ⟨labelDecodesToItsStep .reset, labelDecodesToItsStep .init, labelDecodesToItsStep (.trHi1 .loop),
    labelDecodesToItsStep (.trLo .startup), labelDecodesToItsStep (.trHi2 .loop),
    labelDecodesToItsStep (.trCmp .startup), labelDecodesToItsStep .envEval,
    labelDecodesToItsStep .phaseA, labelDecodesToItsStep .phaseB,
    labelDecodesToItsStep (.gpioSet true), labelDecodesToItsStep (.logEmit .trough),
    (decode_reserved_iff 0b10110000).2 rfl⟩

namespace Machine

/-! ## The data words (spec/30_encoding.md R86, R88) -/

theorem timerValue_eq_append (h1 lo : U32) : timerValue h1 lo = h1 ++ lo := by
  rw [BitVec.append_def, BitVec.shiftLeftZeroExtend_eq, BitVec.setWidth'_eq]
  rfl

/-- Settles O5: the value is `h1` followed by `lo`. -/
theorem timerValueHasBothHalves : Obligations.TimerValueHasBothHalves := by
  intro h1 lo
  refine ⟨rfl, ?_⟩
  rw [timerValue_eq_append]
  refine ⟨BitVec.extractLsb'_append_eq_left, BitVec.extractLsb'_append_eq_right, ?_⟩
  rw [BitVec.toNat_append, ← Nat.shiftLeft_add_eq_or_of_lt lo.isLt, Nat.shiftLeft_eq]

/-- Settles O6: zero extension of one bit leaves nothing from bit 1 up. -/
theorem ledWordIsZeroOrOne : Obligations.LedWordIsZeroOrOne := by
  refine ⟨rfl, rfl, fun l n hn => ?_⟩
  rw [ledWord, BitVec.getLsbD_setWidth, BitVec.getLsbD_of_ge _ _ hn, Bool.and_false]

/-! ## The labels a meaning writes (spec/10_state.md R31) -/

theorem afterLog_encodes (q : List LogEvent) : ∃ j, afterLog q = encode j ∧ j ≠ .reset := by
  cases q with
  | nil => exact ⟨.trHi1 .loop, rfl, Instr.noConfusion⟩
  | cons ev rest => exact ⟨.logEmit ev.kind, rfl, Instr.noConfusion⟩

theorem completeRead_ctl_encodes (c : Ctx) (v : U64) (s : State) :
    ∃ j, (completeRead c v s).ctl = encode j ∧ j ≠ .reset := by
  cases c with
  | startup => exact afterLog_encodes s.logQ
  | loop => exact ⟨.envEval, rfl, Instr.noConfusion⟩

/-- Settles O20: each meaning writes the label of a step it names, or `afterLog` of a queue. -/
theorem noStepWritesAReservedLabel : Obligations.NoStepWritesAReservedLabel := by
  intro i s t h
  cases i with
  | reset => cases h; exact .inr ⟨.init, rfl, Instr.noConfusion⟩
  | init =>
    obtain ⟨-, rfl⟩ | ⟨-, rfl⟩ := execInit_next h
    · exact .inr ⟨.trHi1 .startup, rfl, Instr.noConfusion⟩
    · exact .inr (afterLog_encodes _)
  | trHi1 c =>
    obtain ⟨-, rfl⟩ := execTrHi1_next h; exact .inr ⟨.trLo c, rfl, Instr.noConfusion⟩
  | trLo c =>
    obtain ⟨-, v, -, rfl⟩ := execTrLo_next h; exact .inr ⟨.trHi2 c, rfl, Instr.noConfusion⟩
  | trHi2 c =>
    obtain ⟨-, rfl⟩ := execTrHi2_next h; exact .inr ⟨.trCmp c, rfl, Instr.noConfusion⟩
  | trCmp c =>
    obtain ⟨h1, lo, h2, -, -, -, ⟨-, rfl⟩ | ⟨-, rfl⟩⟩ := execTrCmp_next h
    · exact .inr (completeRead_ctl_encodes c _ s)
    · exact .inr ⟨.trHi1 c, rfl, Instr.noConfusion⟩
  | envEval =>
    obtain ⟨now, start, -, -, rfl⟩ := execEnvEval_next h
    by_cases hle : s.cfg.pwmPeriod ≤ now - start
    · exact .inr ⟨.phaseB, if_pos hle, Instr.noConfusion⟩
    · exact .inr ⟨.phaseA, if_neg hle, Instr.noConfusion⟩
  | phaseA =>
    obtain ⟨d, e, l, r, cc, -, -, -, -, -, -, rfl⟩ := execPhaseA_next h
    by_cases hsame : desiredLevel s.cfg d e = l
    · exact .inr ⟨.trHi1 .loop, if_pos hsame, Instr.noConfusion⟩
    · exact .inr ⟨.gpioSet (desiredLevel s.cfg d e), if_neg hsame, Instr.noConfusion⟩
  | phaseB =>
    obtain ⟨now, cc, d, r, -, -, -, -, -, q, -, rfl⟩ := execPhaseB_next h
    exact .inr (afterLog_encodes q)
  | gpioSet l =>
    obtain ⟨-, rfl⟩ := execGpioSet_next h; exact .inr ⟨.trHi1 .loop, rfl, Instr.noConfusion⟩
  | logEmit k =>
    obtain ⟨ev, rest, -, -, ⟨-, rfl⟩ | ⟨-, rfl⟩⟩ := execLogEmit_next h
    · exact .inr (afterLog_encodes rest)
    · exact .inl ⟨rfl, k, rfl⟩

end Machine

end Sys2Proof

namespace Sys2Proof

namespace Machine

/-! ## The four steps of a read (spec/40_timer_reader.md R100 to R103) -/

/-- TR_HI1 completed: the high half of `C` is latched in `h1` and recorded (R100). -/
def latchHigh1 (c : Ctx) (s : State) : State :=
  { s.record (.rd s.cfg.timerHiAddr (highHalf s.cnt)) with
    h1 := .written (highHalf s.cnt), ctl := encode (.trLo c) }

/-- TR_LO completed: the low half of `C` is latched in `lo` and recorded (R101). -/
def latchLow (c : Ctx) (s : State) : State :=
  { s.record (.rd s.cfg.timerLoAddr (lowHalf s.cnt)) with
    lo := .written (lowHalf s.cnt), ctl := encode (.trHi2 c) }

/-- TR_HI2 completed: the high half of `C` is latched in `h2` and recorded (R102). -/
def latchHigh2 (c : Ctx) (s : State) : State :=
  { s.record (.rd s.cfg.timerHiAddr (highHalf s.cnt)) with
    h2 := .written (highHalf s.cnt), ctl := encode (.trCmp c) }

theorem exec_trHi1_answered {c : Ctx} {s : State} (hb : s.input.busError = false) :
    exec (.trHi1 c) s = .next (latchHigh1 c s) := by
  rw [exec, execTrHi1, memRead_ok hb (State.present_hi s)]
  rfl

theorem exec_trLo_answered {c : Ctx} {s : State} (hwf : s.cfg.wf = true)
    (hb : s.input.busError = false) : exec (.trLo c) s = .next (latchLow c s) := by
  rw [exec, execTrLo, memRead_ok hb (State.present_lo hwf)]
  rfl

theorem exec_trHi2_answered {c : Ctx} {s : State} (hb : s.input.busError = false) :
    exec (.trHi2 c) s = .next (latchHigh2 c s) := by
  rw [exec, execTrHi2, memRead_ok hb (State.present_hi s)]
  rfl

theorem exec_trHi1_error {c : Ctx} {s : State} (hb : s.input.busError = true) :
    exec (.trHi1 c) s = .fault (.busError (encode (.trHi1 c)) s.cfg.timerHiAddr none) := by
  rw [exec, execTrHi1, memRead_error hb]

theorem exec_trLo_error {c : Ctx} {s : State} (hb : s.input.busError = true) :
    exec (.trLo c) s = .fault (.busError (encode (.trLo c)) s.cfg.timerLoAddr none) := by
  rw [exec, execTrLo, memRead_error hb]

theorem exec_trHi2_error {c : Ctx} {s : State} (hb : s.input.busError = true) :
    exec (.trHi2 c) s = .fault (.busError (encode (.trHi2 c)) s.cfg.timerHiAddr none) := by
  rw [exec, execTrHi2, memRead_error hb]

/-- TR_CMP reads the three latches and nothing else before it completes the read. -/
theorem exec_trCmp_complete {c : Ctx} {s : State} {h lo : U32} (h1 : s.h1 = .written h)
    (hlo : s.lo = .written lo) (h2 : s.h2 = .written h) :
    exec (.trCmp c) s = .next (completeRead c (timerValue h lo) s) := by
  simp only [exec, execTrCmp, h1, hlo, h2, needReg_written, if_true]

/-- TR_CMP stops at the first of `h1`, `lo` and `h2` that is unwritten. -/
theorem exec_trCmp_unwritten {c : Ctx} {s : State} (h : s.Lacks .h1 ∨ s.Lacks .lo ∨ s.Lacks .h2) :
    ∃ r ∈ [RegName.h1, .lo, .h2], s.Lacks r ∧
      exec (.trCmp c) s = .fault (.unwrittenRead r) := by
  simp only [exec, execTrCmp]
  cases h1 : s.h1 with
  | unwritten => exact ⟨.h1, by decide, h1, rfl⟩
  | written a =>
    cases hlo : s.lo with
    | unwritten => exact ⟨.lo, by decide, hlo, rfl⟩
    | written l =>
      have h2 : s.h2 = .unwritten :=
        (h.resolve_left fun h => nomatch h1.symm.trans h).resolve_left
          fun h => nomatch hlo.symm.trans h
      exact ⟨.h2, by decide, h2, by rw [h2]; rfl⟩

/-- Settles O21: the timer's high address presents the high half of `C`. -/
theorem trHi1Result : Obligations.TrHi1Result :=
  ⟨⟨rfl, rfl⟩, fun _ _ => ⟨exec_trHi1_answered, exec_trHi1_error⟩⟩

/-- Settles O22: a well-formed map tells the low address from the high one, so it presents the low
half of `C`. -/
theorem trLoResult : Obligations.TrLoResult :=
  ⟨⟨rfl, rfl⟩, fun _ _ hwf => ⟨exec_trLo_answered hwf, exec_trLo_error⟩⟩

/-- Settles O23: the timer's high address presents the high half of `C`. -/
theorem trHi2Result : Obligations.TrHi2Result :=
  ⟨⟨rfl, rfl⟩, fun _ _ => ⟨exec_trHi2_answered, exec_trHi2_error⟩⟩

/-- Settles O24: the comparison completes, retries or faults, by the three latches alone. -/
theorem trCmpResult : Obligations.TrCmpResult := by
  refine ⟨⟨rfl, rfl⟩, fun c s => ⟨fun h lo h1 hlo h2 => ?complete,
    fun a lo b n h1 hlo h2 hne hghost => ?retry, exec_trCmp_unwritten⟩⟩
  case complete =>
    rw [exec_trCmp_complete h1 hlo h2]
    refine ⟨fun hc hq => ?_, fun hc ev rest hq => ?_, fun hc => ?_⟩
    · simp only [hc, completeRead, hq, afterLog_nil]
    · simp only [hc, completeRead, hq, afterLog_cons]
    · rw [hc]; rfl
  case retry =>
    rw [exec_trCmp_retry h1 hlo h2 hne]
    simp only [retryRead, hghost, Cell.map_written]

/-- Settles O26: each step's next state, as its inversion gives it, is `s` but for the written
fields; a device presents what it did, because no meaning writes the address map or `C`. -/
theorem timerReadFrame : Obligations.TimerReadFrame := by
  intro c i s t hi h
  have present := State.present_congr (exec_next_kept h).cfg (exec_next_kept h).cnt
  simp only [List.mem_cons, List.not_mem_nil, or_false] at hi
  rcases hi with rfl | rfl | rfl | rfl
  · obtain ⟨-, rfl⟩ := execTrHi1_next h
    exact ⟨rfl, fun hne => absurd rfl hne, fun _ => rfl, fun _ => rfl, fun _ => ⟨rfl, rfl⟩,
      fun _ => rfl, nofun, present⟩
  · obtain ⟨-, v, -, rfl⟩ := execTrLo_next h
    exact ⟨rfl, fun _ => rfl, fun hne => absurd rfl hne, fun _ => rfl, fun _ => ⟨rfl, rfl⟩,
      fun _ => rfl, nofun, present⟩
  · obtain ⟨-, rfl⟩ := execTrHi2_next h
    exact ⟨rfl, fun _ => rfl, fun _ => rfl, fun hne => absurd rfl hne, fun _ => ⟨rfl, rfl⟩,
      fun _ => rfl, nofun, present⟩
  · obtain ⟨h1, lo, h2, -, -, -, ⟨-, rfl⟩ | ⟨-, rfl⟩⟩ := execTrCmp_next h
    · cases c with
      | startup =>
        exact ⟨rfl, fun _ => rfl, fun _ => rfl, fun _ => rfl, fun hne => absurd rfl hne,
          fun hne => absurd rfl hne, fun _ => rfl, present⟩
      | loop =>
        exact ⟨rfl, fun _ => rfl, fun _ => rfl, fun _ => rfl, fun hne => absurd rfl hne,
          fun _ => rfl, fun _ => rfl, present⟩
    · exact ⟨rfl, fun _ => rfl, fun _ => rfl, fun _ => rfl, fun hne => absurd rfl hne,
        fun _ => rfl, fun _ => rfl, present⟩

/-! ## An attempt, step by step (spec/40_timer_reader.md R104, R105) -/

/-- A step whose meaning completes on the advanced state ends there, with the input used up. -/
theorem step_next_of_exec {s t u : State} {i : Instr} (hstop : s.stop = none)
    (hreset : s.input.reset = false) (hctl : s.ctl = encode i) (hi : i ≠ .reset)
    (hexec : exec i s.advanceCnt = .next u) (h : step s = .next t) : t = u.consume := by
  have hdecode : decode s.ctl = .step i := by rw [hctl, labelDecodesToItsStep]
  have hrun := (stepRunsTheLabelInCtl s i (step_next_cases h).1 hreset hstop hdecode hi).1 u hexec
  exact Host.Outcome.next.inj (h.symm.trans hrun)

section Attempt

variable {c : Ctx} {s0 s1 s2 s3 s4 : State}

theorem Attempt.state1 (h : Attempt c s0 s1 s2 s3 s4) :
    s1 = (latchHigh1 c s0.advanceCnt).consume :=
  step_next_of_exec h.running (h.noReset s0 (by simp)) h.start nofun
    (exec_trHi1_answered (h.noError s0 (by simp))) h.step0

theorem Attempt.state2 (h : Attempt c s0 s1 s2 s3 s4) :
    s2 = (latchLow c s1.advanceCnt).consume := by
  have hstop : s1.stop = none := by rw [h.state1]; exact h.running
  have hctl : s1.ctl = encode (.trLo c) := by rw [h.state1]; rfl
  exact step_next_of_exec hstop (h.noReset s1 (by simp)) hctl nofun
    (exec_trLo_answered (step_next_cases h.step1).1 (h.noError s1 (by simp))) h.step1

theorem Attempt.state3 (h : Attempt c s0 s1 s2 s3 s4) :
    s3 = (latchHigh2 c s2.advanceCnt).consume := by
  have hstop : s2.stop = none := by rw [h.state2, h.state1]; exact h.running
  have hctl : s2.ctl = encode (.trHi2 c) := by rw [h.state2]; rfl
  exact step_next_of_exec hstop (h.noReset s2 (by simp)) hctl nofun
    (exec_trHi2_answered (h.noError s2 (by simp))) h.step2

/-- What the block holds when an attempt stands before its TR_CMP. -/
structure AtComparison (c : Ctx) (s0 s1 s2 s3 : State) : Prop where
  h1 : s3.h1 = .written (highHalf s1.cnt)
  lo : s3.lo = .written (lowHalf s2.cnt)
  h2 : s3.h2 = .written (highHalf s3.cnt)
  ctl : s3.ctl = encode (.trCmp c)
  stop : s3.stop = none
  now : s3.now = s0.now
  trRetries : s3.trRetries = s0.trRetries
  hist : s3.hist = s0.hist ++ [.rd s0.cfg.timerHiAddr (highHalf s1.cnt),
    .rd s0.cfg.timerLoAddr (lowHalf s2.cnt), .rd s0.cfg.timerHiAddr (highHalf s3.cnt)]

theorem Attempt.atComparison (h : Attempt c s0 s1 s2 s3 s4) : AtComparison c s0 s1 s2 s3 := by
  rw [h.state3, h.state2, h.state1]
  refine ⟨rfl, rfl, rfl, rfl, ?stop, ?now, ?trRetries, ?hist⟩
  case stop => simp [latchHigh1, latchLow, latchHigh2, h.running]
  case now | trRetries | hist => simp [latchHigh1, latchLow, latchHigh2]

theorem AtComparison.h1_eq_h2_iff (h : AtComparison c s0 s1 s2 s3) :
    s3.h1 = s3.h2 ↔ highHalf s3.cnt = highHalf s1.cnt := by
  rw [h.h1, h.h2, Cell.written.injEq, eq_comm]

/-- Equal high halves complete the read. -/
theorem Attempt.state4_of_eq (h : Attempt c s0 s1 s2 s3 s4) (heq : s3.h1 = s3.h2) :
    s4 = (completeRead c (timerValue (highHalf s1.cnt) (lowHalf s2.cnt)) s3.advanceCnt).consume :=
  have hc := h.atComparison
  step_next_of_exec hc.stop (h.noReset s3 (by simp)) hc.ctl nofun
    (exec_trCmp_complete (s := s3.advanceCnt) hc.h1 hc.lo (heq.symm.trans hc.h1)) h.step3

/-- Unequal high halves discard the attempt. -/
theorem Attempt.state4_of_ne (h : Attempt c s0 s1 s2 s3 s4) (hne : s3.h1 ≠ s3.h2) :
    s4 = (retryRead c s3.advanceCnt).consume :=
  have hc := h.atComparison
  have halves : highHalf s1.cnt ≠ highHalf s3.cnt := fun heq =>
    hne (hc.h1_eq_h2_iff.2 heq.symm)
  step_next_of_exec hc.stop (h.noReset s3 (by simp)) hc.ctl nofun
    (exec_trCmp_retry (s := s3.advanceCnt) hc.h1 hc.lo hc.h2 halves) h.step3

theorem Attempt.state4_hist (h : Attempt c s0 s1 s2 s3 s4) : s4.hist = s3.hist := by
  by_cases heq : s3.h1 = s3.h2
  · rw [h.state4_of_eq heq, State.consume_hist, completeRead_hist, State.advanceCnt_hist]
  · rw [h.state4_of_ne heq, State.consume_hist, retryRead_hist, State.advanceCnt_hist]

end Attempt

/-- Settles O27: each of the first three steps records its access and latches its half, and TR_CMP
records nothing. -/
theorem attemptReadsHighLowHigh : Obligations.AttemptReadsHighLowHigh := by
  intro c s0 s1 s2 s3 s4 h
  have hc := h.atComparison
  exact ⟨h.state4_hist.trans hc.hist, hc.h1, hc.lo, hc.h2, hc.ctl⟩

/-! ## The counter over a run without RESET (spec/10_state.md R40) -/

theorem Elapses.cnt {k : Nat} {s t : State} (h : Elapses k s t) :
    t.cnt = s.cnt + BitVec.ofNat 64 k := by
  induction h with
  | refl s => exact (BitVec.add_zero s.cnt).symm
  | tick _ hr hstep ih =>
    rw [step_next_cnt hr hstep, State.advanceCnt_cnt, ih, BitVec.add_assoc, ← BitVec.ofNat_add]

theorem Elapses.single {s t : State} (hr : s.input.reset = false) (h : step s = .next t) :
    Elapses s.input.ticks s t :=
  Nat.zero_add s.input.ticks ▸ .tick (.refl s) hr h

section Attempt

variable {c : Ctx} {s0 s1 s2 s3 s4 : State} (h : Attempt c s0 s1 s2 s3 s4)
include h

theorem Attempt.elapses_toLow : Elapses s1.input.ticks s1 s2 :=
  .single (h.noReset s1 (by simp)) h.step1

/-- The window of an attempt is what CNT advances from its TR_HI1 to its TR_HI2. -/
theorem Attempt.elapses_window : Elapses (attemptWindow s1 s2) s1 s3 :=
  .tick h.elapses_toLow (h.noReset s2 (by simp)) h.step2

end Attempt

/-! ## Carries (spec/40_timer_reader.md R110) -/

theorem highHalf_toNat (x : U64) : (highHalf x).toNat = x.toNat / 2 ^ 32 % 2 ^ 32 := by
  rw [highHalf, BitVec.extractLsb'_toNat, Nat.shiftRight_eq_div_pow]

/-- The high half after `k` ticks, read off the unwrapped counter. -/
theorem highHalf_add_toNat (x : U64) (k : Nat) :
    (highHalf (x + BitVec.ofNat 64 k)).toNat = (x.toNat + k) / 2 ^ 32 % 2 ^ 32 := by
  rw [highHalf_toNat, BitVec.toNat_add, BitVec.toNat_ofNat]
  omega

/-- In a window this long the high half cannot come round to its old value, so it differs exactly
when the counter carries. -/
theorem highHalf_add_ne_iff_carryIn {x : U64} {k : Nat} (hk : k ≤ 2 ^ 64 - 2 ^ 32) :
    highHalf (x + BitVec.ofNat 64 k) ≠ highHalf x ↔ CarryIn x.toNat k := by
  rw [ne_eq, ← BitVec.toNat_inj, highHalf_add_toNat, highHalf_toNat, CarryIn]
  omega

theorem carryIn_of_highHalf_add_ne {x : U64} {k : Nat}
    (hne : highHalf (x + BitVec.ofNat 64 k) ≠ highHalf x) : CarryIn x.toNat k := by
  rw [ne_eq, ← BitVec.toNat_inj, highHalf_add_toNat, highHalf_toNat] at hne
  rw [CarryIn]
  omega

theorem CarryIn.mono {a j k : Nat} (h : CarryIn a j) (hjk : j ≤ k) : CarryIn a k := by
  rw [CarryIn] at *
  omega

/-- Two carries are `2^32` ticks apart, so the high half stands still after a first one. -/
theorem highHalf_add_eq_of_carryIn {x : U64} {m k : Nat} (h : CarryIn x.toNat m)
    (hk : m + k < 2 ^ 32) :
    highHalf (x + BitVec.ofNat 64 m + BitVec.ofNat 64 k) = highHalf (x + BitVec.ofNat 64 m) := by
  rw [CarryIn] at h
  rw [BitVec.add_assoc, ← BitVec.ofNat_add, ← BitVec.toNat_inj, highHalf_add_toNat,
    highHalf_add_toNat]
  omega

theorem timerValue_highHalf_lowHalf (x : U64) : timerValue (highHalf x) (lowHalf x) = x :=
  (timerValue_eq_append _ _).trans <|
    (BitVec.extractLsb'_append_extractLsb'_eq_extractLsb' (x := x) (len₁ := 32) (len₂ := 32)
      rfl).trans BitVec.extractLsb'_eq_self

/-! ## Completed and failed attempts (spec/40_timer_reader.md R110 to R114) -/

section Attempt

variable {c : Ctx} {s0 s1 s2 s3 s4 : State} (h : Attempt c s0 s1 s2 s3 s4)
include h

theorem Attempt.ne_iff_carryIn (hw : attemptWindow s1 s2 ≤ 2 ^ 64 - 2 ^ 32) :
    s3.h1 ≠ s3.h2 ↔ CarryIn s1.cnt.toNat (attemptWindow s1 s2) := by
  rw [ne_eq, h.atComparison.h1_eq_h2_iff, h.elapses_window.cnt, ← highHalf_add_ne_iff_carryIn hw]

theorem Attempt.carryIn_of_ne (hne : s3.h1 ≠ s3.h2) :
    CarryIn s1.cnt.toNat (attemptWindow s1 s2) := by
  rw [ne_eq, h.atComparison.h1_eq_h2_iff, h.elapses_window.cnt] at hne
  exact carryIn_of_highHalf_add_ne hne

/-- Without a carry in the whole window there is none before TR_LO, so `h1` is the high half of `C`
there too. -/
theorem Attempt.timerValue_eq (heq : s3.h1 = s3.h2)
    (hw : attemptWindow s1 s2 ≤ 2 ^ 64 - 2 ^ 32) :
    timerValue (highHalf s1.cnt) (lowHalf s2.cnt) = s2.cnt := by
  have hle : s1.input.ticks ≤ attemptWindow s1 s2 := Nat.le_add_right _ _
  have hstill : ¬ CarryIn s1.cnt.toNat s1.input.ticks := fun hcarry =>
    (h.ne_iff_carryIn hw).2 (hcarry.mono hle) heq
  have hhigh : highHalf s2.cnt = highHalf s1.cnt := by
    rw [h.elapses_toLow.cnt]
    exact not_not.1 ((highHalf_add_ne_iff_carryIn (hle.trans hw)).not.2 hstill)
  rw [← hhigh, timerValue_highHalf_lowHalf]

/-- A completed read ends in the state that `C` at its TR_LO step gives. -/
theorem Attempt.completes (heq : s3.h1 = s3.h2) (hw : attemptWindow s1 s2 ≤ 2 ^ 64 - 2 ^ 32) :
    s4 = (completeRead c s2.cnt s3.advanceCnt).consume := by
  rw [h.state4_of_eq heq, h.timerValue_eq heq hw]

end Attempt

@[simp] theorem completeRead_now (c : Ctx) (v : U64) (s : State) :
    (completeRead c v s).now = .written v := by cases c <;> rfl

@[simp] theorem completeRead_trRetries (c : Ctx) (v : U64) (s : State) :
    (completeRead c v s).trRetries = .written 0 := by cases c <;> rfl

theorem Attempt.now_eq {c : Ctx} {s0 s1 s2 s3 s4 : State} (h : Attempt c s0 s1 s2 s3 s4)
    (heq : s3.h1 = s3.h2) (hw : attemptWindow s1 s2 ≤ 2 ^ 64 - 2 ^ 32) :
    s4.now = .written s2.cnt := by
  rw [h.completes heq hw, State.consume_now, completeRead_now]

/-- Settles O28: a window without a carry gives `C` at TR_LO, and only a carry makes the high halves
differ. -/
theorem consistentTimerRead : Obligations.ConsistentTimerRead := by
  intro c s0 s1 s2 s3 s4 h
  refine ⟨fun heq hw => ⟨h.now_eq heq hw, fun hc => ?_⟩, h.carryIn_of_ne⟩
  rw [h.completes heq hw, hc]
  rfl

/-- Settles O29: in so short a window the high halves differ exactly on a carry, and differing high
halves are retried with `now` as it was. -/
theorem retryExactlyOnACarry : Obligations.RetryExactlyOnACarry := by
  intro c s0 s1 s2 s3 s4 h hw
  rw [← h.ne_iff_carryIn (by omega)]
  refine ⟨fun ⟨_, _, hne⟩ => hne, fun hne => ?_⟩
  have hs4 := h.state4_of_ne hne
  exact ⟨by rw [hs4]; rfl, by rw [hs4]; exact h.atComparison.now, hne⟩

/-- What CNT advances from the TR_HI1 of an attempt to the TR_HI1 of the attempt after it. -/
theorem Attempt.elapses_toNext {c d : Ctx} {a0 a1 a2 a3 a4 b1 b2 b3 b4 : State}
    (ha : Attempt c a0 a1 a2 a3 a4) (hb : Attempt d a4 b1 b2 b3 b4) :
    Elapses (attemptWindow a1 a2 + a3.input.ticks + a4.input.ticks) a1 b1 :=
  (ha.elapses_window.tick (ha.noReset a3 (by simp)) ha.step3).tick (hb.noReset a4 (by simp)) hb.step0

/-- Settles O30: the failed attempt's carry is the only one in fewer than `2^32` ticks, so the next
attempt has equal high halves. -/
theorem secondAttemptSucceeds : Obligations.SecondAttemptSucceeds := by
  intro c a0 a1 a2 a3 a4 b1 b2 b3 b4 ha hb hne hticks
  have hcarry : CarryIn a1.cnt.toNat (attemptWindow a1 a2 + a3.input.ticks + a4.input.ticks) :=
    (ha.carryIn_of_ne hne).mono (by omega)
  have hsum : attemptWindow a1 a2 + a3.input.ticks + a4.input.ticks + attemptWindow b1 b2 <
      2 ^ 32 := by
    simp only [attemptWindow]
    omega
  have heq : b3.h1 = b3.h2 := by
    rw [hb.atComparison.h1_eq_h2_iff, hb.elapses_window.cnt, (ha.elapses_toNext hb).cnt]
    exact highHalf_add_eq_of_carryIn hcarry hsum
  have hdone := hb.completes heq (by omega)
  refine ⟨heq, by rw [hdone]; simp, fun hghost => ?_, by rw [hdone]; simp⟩
  calc b3.trRetries = a4.trRetries := hb.atComparison.trRetries
    _ = a3.trRetries.map (· + 1) := by rw [ha.state4_of_ne hne]; rfl
    _ = .written 1 := by rw [ha.atComparison.trRetries, hghost]; rfl

/-- Settles O31: the two values are `C` at the two TR_LO steps, `k` ticks apart. -/
theorem timerReadsAreMonotonic : Obligations.TimerReadsAreMonotonic := by
  intro c d a0 a1 a2 a3 a4 b0 b1 b2 b3 b4 k ha hb hk haeq hbeq haw hbw
  refine ⟨a2.cnt, b2.cnt, ha.now_eq haeq (by omega), hb.now_eq hbeq (by omega), ?_, fun hfits => ?_⟩
  · rw [hk.cnt, add_sub_cancel_left]
  · rw [hk.cnt, BitVec.le_def, BitVec.toNat_add, BitVec.toNat_ofNat]
    omega

end Machine

end Sys2Proof

namespace Sys2Proof

/-! ## The frame of a meaning, by register (spec/10_state.md R21, "written by") -/

/-- The steps that write `duty`, `rising` and `cycle_count`. -/
def Instr.writesEnvelope : Instr → Bool
  | .reset | .init | .phaseB => true
  | .trHi1 _ | .trLo _ | .trHi2 _ | .trCmp _ | .envEval | .phaseA | .gpioSet _ | .logEmit _ => false

/-- The steps that write `led_on`. -/
def Instr.writesLedOn : Instr → Bool
  | .reset | .init | .gpioSet _ => true
  | .trHi1 _ | .trLo _ | .trHi2 _ | .trCmp _ | .envEval | .phaseA | .phaseB | .logEmit _ => false

/-- The steps that write `log_q`. -/
def Instr.writesQueue : Instr → Bool
  | .reset | .init | .phaseB | .logEmit _ => true
  | .trHi1 _ | .trLo _ | .trHi2 _ | .trCmp _ | .envEval | .phaseA | .gpioSet _ => false

theorem Instr.writesEnvelope_eq_false (i : Instr) (hreset : i ≠ .reset) (hinit : i ≠ .init)
    (hb : i ≠ .phaseB) : i.writesEnvelope = false := by
  cases i with
  | reset => exact absurd rfl hreset
  | init => exact absurd rfl hinit
  | phaseB => exact absurd rfl hb
  | trHi1 | trLo | trHi2 | trCmp | envEval | phaseA | gpioSet | logEmit => rfl

namespace Machine

/-- `t` has the envelope registers of `s`. -/
structure SameEnvelope (s t : State) : Prop where
  duty : t.duty = s.duty
  rising : t.rising = s.rising
  cycleCount : t.cycleCount = s.cycleCount

theorem SameEnvelope.envelope {s t : State} (h : SameEnvelope s t) {e : U32 × Bool × U32}
    (he : s.Envelope e) : t.Envelope e := by
  obtain ⟨hd, hr, hc⟩ := he
  exact ⟨h.duty.trans hd, h.rising.trans hr, h.cycleCount.trans hc⟩

theorem completeRead_sameEnvelope (c : Ctx) (v : U64) (s : State) :
    SameEnvelope s (completeRead c v s) := by
  cases c with
  | startup => exact ⟨rfl, rfl, rfl⟩
  | loop => exact ⟨rfl, rfl, rfl⟩

@[simp] theorem completeRead_ledOn (c : Ctx) (v : U64) (s : State) :
    (completeRead c v s).ledOn = s.ledOn := by cases c <;> rfl

@[simp] theorem completeRead_gpio (c : Ctx) (v : U64) (s : State) :
    (completeRead c v s).gpio = s.gpio := by cases c <;> rfl

@[simp] theorem completeRead_logQ (c : Ctx) (v : U64) (s : State) :
    (completeRead c v s).logQ = s.logQ := by cases c <;> rfl

@[simp] theorem completeRead_stop (c : Ctx) (v : U64) (s : State) :
    (completeRead c v s).stop = s.stop := by cases c <;> rfl

/-- What the meaning of `i` leaves in `t` as it was in `s`. -/
structure MeaningFrame (i : Instr) (s t : State) : Prop where
  envelope : i.writesEnvelope = false → SameEnvelope s t
  ledOn : i.writesLedOn = false → t.ledOn = s.ledOn
  gpio : (∀ l, i ≠ .gpioSet l) → t.gpio = s.gpio
  logQ : i.writesQueue = false → t.logQ = s.logQ
  stop : i ≠ .reset → t.stop = s.stop

/-- A meaning that completes writes each register only where its step is one that writes it. -/
theorem exec_next_frame {i : Instr} {s t : State} (h : exec i s = .next t) :
    MeaningFrame i s t := by
  cases i with
  | reset => cases h; exact ⟨nofun, nofun, fun _ => rfl, nofun, fun hne => absurd rfl hne⟩
  | init =>
    obtain ⟨-, rfl⟩ | ⟨-, rfl⟩ := execInit_next h
    · exact ⟨nofun, nofun, fun _ => rfl, nofun, fun _ => rfl⟩
    · exact ⟨nofun, nofun, fun _ => rfl, nofun, fun _ => rfl⟩
  | trHi1 c =>
    obtain ⟨-, rfl⟩ := execTrHi1_next h
    exact ⟨fun _ => ⟨rfl, rfl, rfl⟩, fun _ => rfl, fun _ => rfl, fun _ => rfl, fun _ => rfl⟩
  | trLo c =>
    obtain ⟨-, v, -, rfl⟩ := execTrLo_next h
    exact ⟨fun _ => ⟨rfl, rfl, rfl⟩, fun _ => rfl, fun _ => rfl, fun _ => rfl, fun _ => rfl⟩
  | trHi2 c =>
    obtain ⟨-, rfl⟩ := execTrHi2_next h
    exact ⟨fun _ => ⟨rfl, rfl, rfl⟩, fun _ => rfl, fun _ => rfl, fun _ => rfl, fun _ => rfl⟩
  | trCmp c =>
    obtain ⟨h1, lo, h2, -, -, -, ⟨-, rfl⟩ | ⟨-, rfl⟩⟩ := execTrCmp_next h
    · exact ⟨fun _ => completeRead_sameEnvelope c _ s, fun _ => completeRead_ledOn c _ s,
        fun _ => completeRead_gpio c _ s, fun _ => completeRead_logQ c _ s,
        fun _ => completeRead_stop c _ s⟩
    · exact ⟨fun _ => ⟨rfl, rfl, rfl⟩, fun _ => rfl, fun _ => rfl, fun _ => rfl, fun _ => rfl⟩
  | envEval =>
    obtain ⟨now, start, -, -, rfl⟩ := execEnvEval_next h
    exact ⟨fun _ => ⟨rfl, rfl, rfl⟩, fun _ => rfl, fun _ => rfl, fun _ => rfl, fun _ => rfl⟩
  | phaseA =>
    obtain ⟨d, e, l, r, cc, -, -, -, -, -, -, rfl⟩ := execPhaseA_next h
    exact ⟨fun _ => ⟨rfl, rfl, rfl⟩, fun _ => rfl, fun _ => rfl, fun _ => rfl, fun _ => rfl⟩
  | phaseB =>
    obtain ⟨now, cc, d, r, -, -, -, -, -, q, -, rfl⟩ := execPhaseB_next h
    exact ⟨nofun, fun _ => rfl, fun _ => rfl, nofun, fun _ => rfl⟩
  | gpioSet l =>
    obtain ⟨-, rfl⟩ := execGpioSet_next h
    exact ⟨fun _ => ⟨rfl, rfl, rfl⟩, nofun, fun hne => absurd rfl (hne l), fun _ => rfl,
      fun _ => rfl⟩
  | logEmit k =>
    obtain ⟨ev, rest, -, -, ⟨-, rfl⟩ | ⟨-, rfl⟩⟩ := execLogEmit_next h
    · exact ⟨fun _ => ⟨rfl, rfl, rfl⟩, fun _ => rfl, fun _ => rfl, nofun, fun _ => rfl⟩
    · exact ⟨fun _ => ⟨rfl, rfl, rfl⟩, fun _ => rfl, fun _ => rfl, nofun, fun _ => rfl⟩

/-! ## EnvWF along a run (spec/41_envelope.md R170) -/

/-- `(duty, rising, cycle_count)` after a boundary event (R150). -/
def envelopeNext (cfg : Cfg) (e : U32 × Bool × U32) : U32 × Bool × U32 :=
  (nextDuty cfg e.1 e.2.1 e.2.2, nextRising cfg e.1 e.2.1 e.2.2, nextCount cfg e.2.2)

/-- PHASE_B completes on well-formed registers only, and makes the boundary event's of them. -/
theorem exec_phaseB_envelope {s t : State} (h : exec .phaseB s = .next t) :
    ∃ d r cc, s.Envelope (d, r, cc) ∧ envWF s.cfg d r cc = true ∧
      t.Envelope (envelopeNext s.cfg (d, r, cc)) := by
  obtain ⟨now, cc, d, r, -, hcc, hd, hr, hwf, q, -, rfl⟩ := execPhaseB_next h
  exact ⟨d, r, cc, ⟨hd, hr, hcc⟩, hwf, rfl, rfl, rfl⟩

/-- The values INIT leaves. -/
theorem exec_init_envelope {s t : State} (h : exec .init s = .next t) :
    t.Envelope (0, true, 0) := by
  obtain ⟨-, rfl⟩ | ⟨-, rfl⟩ := execInit_next h
  · exact ⟨rfl, rfl, rfl⟩
  · exact ⟨rfl, rfl, rfl⟩

theorem envWF_init {cfg : Cfg} (h : cfg.wf = true) : envWF cfg 0 true 0 = true := by
  obtain ⟨⟨-, hd, hc⟩, -⟩ := (configWellFormedIff cfg).1 h
  exact (envelopeWellFormedIff cfg 0 true 0).2
    ⟨by bv_omega, by bv_omega, fun _ => by bv_omega, nofun⟩

/-- The envelope registers are written and satisfy `EnvWF` (R36). -/
def State.EnvStarted (s : State) : Prop :=
  ∃ d r cc, s.duty = .written d ∧ s.rising = .written r ∧ s.cycleCount = .written cc ∧
    envWF s.cfg d r cc = true

theorem State.EnvStarted.of_same {s t : State} (h : s.EnvStarted) (hcfg : t.cfg = s.cfg)
    (hsame : SameEnvelope s t) : t.EnvStarted := by
  obtain ⟨d, r, cc, hd, hr, hcc, hwf⟩ := h
  exact ⟨d, r, cc, hsame.duty.trans hd, hsame.rising.trans hr, hsame.cycleCount.trans hcc,
    hcfg ▸ hwf⟩

theorem State.EnvSound.of_same {s t : State} (h : s.EnvSound) (hcfg : t.cfg = s.cfg)
    (hsame : SameEnvelope s t) : t.EnvSound := by
  obtain ⟨hd, hr, hcc⟩ | hstarted := h
  · exact .inl ⟨hsame.duty.trans hd, hsame.rising.trans hr, hsame.cycleCount.trans hcc⟩
  · exact .inr (State.EnvStarted.of_same hstarted hcfg hsame)

/-- INIT starts the envelope registers at a well-formed value. -/
theorem exec_init_envStarted {s t : State} (hcfg : s.cfg.wf = true) (h : exec .init s = .next t) :
    t.EnvStarted := by
  obtain ⟨hd, hr, hcc⟩ := exec_init_envelope h
  exact ⟨0, true, 0, hd, hr, hcc, envWF_init ((exec_next_kept h).cfg ▸ hcfg)⟩

/-- A boundary event leaves well-formed registers. -/
theorem exec_phaseB_envStarted {s t : State} (h : exec .phaseB s = .next t) : t.EnvStarted := by
  obtain ⟨d, r, cc, -, hwf, hd, hr, hcc⟩ := exec_phaseB_envelope h
  refine ⟨_, _, _, hd, hr, hcc, ?_⟩
  rw [(exec_next_kept h).cfg]
  exact envWF_boundary hwf

/-- A meaning under a well-formed configuration keeps the envelope registers sound. -/
theorem exec_next_envSound {i : Instr} {s t : State} (hcfg : s.cfg.wf = true)
    (h : exec i s = .next t) (hs : s.EnvSound) : t.EnvSound := by
  cases hw : i.writesEnvelope with
  | false => exact hs.of_same (exec_next_kept h).cfg ((exec_next_frame h).envelope hw)
  | true =>
    cases i with
    | reset => cases h; exact .inl ⟨rfl, rfl, rfl⟩
    | init => exact .inr (exec_init_envStarted hcfg h)
    | phaseB => exact .inr (exec_phaseB_envStarted h)
    | trHi1 | trLo | trHi2 | trCmp | envEval | phaseA | gpioSet | logEmit => cases hw

/-- Settles O54: RESET leaves the registers unwritten, INIT and PHASE_B write well-formed values,
and neither another meaning nor a stop writes them. -/
theorem everyStepKeepsEnvelopeWellFormed : Obligations.EveryStepKeepsEnvelopeWellFormed := by
  intro s t hs h
  obtain ⟨hcfg, ⟨-, rfl⟩ | ⟨-, -, hcase⟩⟩ := step_next_cases h
  · exact .inl ⟨rfl, rfl, rfl⟩
  · have hadv : s.advanceCnt.EnvSound := hs
    rcases hcase with ⟨i, u, -, -, hu, rfl⟩ | ⟨i, f, -, -, -, rfl⟩ | ⟨i, r, -, -, -, rfl⟩ | ⟨-, rfl⟩
    · exact (exec_next_envSound (s := s.advanceCnt) hcfg hu hadv : u.EnvSound)
    · exact hadv
    · exact hadv
    · exact hadv

end Machine

end Sys2Proof

namespace Sys2Proof

theorem LogKind.cases_of_ne_banner {k : LogKind} (h : k ≠ .banner) :
    k = .status ∨ k = .peak ∨ k = .trough := by
  cases k with
  | banner => exact absurd rfl h
  | status => exact .inl rfl
  | peak => exact .inr (.inl rfl)
  | trough => exact .inr (.inr rfl)

namespace Machine

/-! ## The queue of a boundary event (spec/41_envelope.md R153) -/

@[simp] theorem mem_ordered {swap : Bool} {ks : List LogKind} {k : LogKind} :
    k ∈ ordered swap ks ↔ k ∈ ks := by
  cases swap <;> simp [ordered]

@[simp] theorem length_ordered (swap : Bool) (ks : List LogKind) :
    (ordered swap ks).length = ks.length := by
  cases swap <;> simp [ordered]

@[simp] theorem nodup_ordered {swap : Bool} {ks : List LogKind} :
    (ordered swap ks).Nodup ↔ ks.Nodup := by
  cases swap <;> simp [ordered]

theorem boundaryQueue_kinds (inp : EnvInput) (flip : Option LogKind) (d : U32) (r : Bool) :
    (boundaryQueue inp flip d r).map LogEvent.kind =
      ordered inp.swap (boundaryKinds flip inp.status) := by
  rw [boundaryQueue, List.map_map]
  exact List.map_id _

theorem mem_boundaryQueue {inp : EnvInput} {flip : Option LogKind} {d : U32} {r : Bool}
    {ev : LogEvent} (h : ev ∈ boundaryQueue inp flip d r) : ev.duty = d ∧ ev.rising = r := by
  obtain ⟨k, -, rfl⟩ := List.mem_map.1 h
  exact ⟨rfl, rfl⟩

theorem mem_boundaryKinds {flip : Option LogKind} {status : Bool} {k : LogKind} :
    k ∈ boundaryKinds flip status ↔ flip = some k ∨ (status = true ∧ k = .status) := by
  cases status <;> simp [boundaryKinds]

theorem length_boundaryKinds_le_two (flip : Option LogKind) (status : Bool) :
    (boundaryKinds flip status).length ≤ 2 := by
  cases flip <;> cases status <;> simp [boundaryKinds]

theorem nodup_boundaryKinds {flip : Option LogKind} {status : Bool} (h : flip ≠ some .status) :
    (boundaryKinds flip status).Nodup := by
  cases flip with
  | none => cases status <;> simp [boundaryKinds]
  | some k => cases status <;> simp_all [boundaryKinds]

/-- A flip is a PEAK from rising to falling, a TROUGH from falling to rising, and nothing else. -/
theorem flipEvent_iff {cfg : Cfg} {d : U32} {r : Bool} {cc : U32} (h : envWF cfg d r cc = true)
    (k : LogKind) : flipEvent cfg d r cc = some k ↔
      (k = .peak ∧ r = true ∧ nextRising cfg d r cc = false) ∨
        (k = .trough ∧ r = false ∧ nextRising cfg d r cc = true) := by
  cases boundaryCase h with
  | counts _ _ _ _ rising event => cases r <;> simp [rising, event]
  | rises _ up _ _ _ _ rising event => simp [up ▸ rising, up ▸ event, up]
  | peaks _ up _ _ _ _ rising event => subst up; simp [rising, event, eq_comm]
  | falls _ down _ _ _ _ rising event => subst down; simp [rising, event]
  | troughs _ down _ _ _ _ rising event => subst down; simp [rising, event, eq_comm]

/-- Settles O45: the queue holds the flip and the drawn STATUS in the drawn order, with the new
registers. -/
theorem boundaryQueuesItsEvents : Obligations.BoundaryQueuesItsEvents := by
  intro s t h
  obtain ⟨now, cc, d, r, -, -, -, hr, hwf, q, hq, rfl⟩ := execPhaseB_next h
  have flips := flipEvent_iff hwf
  have kinds : ∀ k, k ∈ q.map LogEvent.kind ↔
      flipEvent s.cfg d r cc = some k ∨ (s.input.status = true ∧ k = .status) := fun k => by
    rw [hq, boundaryQueue_kinds, mem_ordered, mem_boundaryKinds]
  refine ⟨?length, ?peak, ?trough, ?status, ?banner, ?nodup, fun ev hev => ?registers⟩
  case length =>
    rw [hq, boundaryQueue, List.length_map, length_ordered]
    exact length_boundaryKinds_le_two _ _
  case peak => rw [kinds, flips]; simp [hr]
  case trough => rw [kinds, flips]; simp [hr]
  case status => rw [kinds, flips]; simp
  case banner => rw [kinds, flips]; simp
  case nodup =>
    rw [hq, boundaryQueue_kinds, nodup_ordered]
    exact nodup_boundaryKinds fun hs => by simp [flips] at hs
  case registers =>
    obtain ⟨hduty, hrising⟩ := mem_boundaryQueue (hq ▸ hev)
    exact ⟨congrArg Cell.written hduty.symm, congrArg Cell.written hrising.symm⟩

/-! ## The last write since RESET (spec/10_state.md R37) -/

theorem State.lastWrite_append {s t : State} {es : List HistEntry} (hcfg : t.cfg = s.cfg)
    (hhist : t.hist = s.hist ++ es) :
    t.lastWrite = es.foldl (lastWriteNext s.cfg.gpioAddr) s.lastWrite := by
  rw [State.lastWrite, hcfg, hhist, List.foldl_append, State.lastWrite]

/-- Entries that are neither a write nor a RESET leave the last write as it was. -/
theorem foldl_lastWriteNext_eq {a : Nat} {last : Option U32} {es : List HistEntry}
    (h : ∀ e ∈ es, lastWriteNext a last e = last) : es.foldl (lastWriteNext a) last = last := by
  induction es with
  | nil => rfl
  | cons e es ih =>
    rw [List.foldl_cons, h e List.mem_cons_self]
    exact ih fun x hx => h x (List.mem_cons_of_mem e hx)

theorem State.lastWrite_recordFault (s : State) (f : Fault) :
    (s.recordFault f).lastWrite = s.lastWrite := by
  rw [State.lastWrite_append (s := s) (t := s.recordFault f) rfl rfl]
  cases f with
  | busError w a d =>
    cases d with
    | none => rfl
    | some v => rfl
  | envInvariant d r cc => rfl
  | unwrittenRead r => rfl

theorem State.lastWrite_resetBlock (s : State) : s.resetBlock.lastWrite = none :=
  State.lastWrite_append (s := s) (t := s.resetBlock) rfl rfl

/-- A step other than RESET and GPIO_SET records reads and log events at most. -/
theorem mem_newEntries_cases {i : Instr} {s : State} {e : HistEntry} (hi : i ≠ .reset)
    (hg : ∀ l, i ≠ .gpioSet l) (he : e ∈ newEntries i s) :
    (∃ a v, e = .rd a v) ∨ ∃ ev, e = .log ev := by
  cases i with
  | reset => exact absurd rfl hi
  | gpioSet l => exact absurd rfl (hg l)
  | trHi1 c => exact .inl ⟨_, _, List.mem_singleton.1 he⟩
  | trHi2 c => exact .inl ⟨_, _, List.mem_singleton.1 he⟩
  | trLo c =>
    obtain ⟨v, -, rfl⟩ := by simpa [newEntries] using he
    exact .inl ⟨_, v, rfl⟩
  | logEmit k =>
    obtain ⟨-, ev, -, rfl⟩ := by simpa [newEntries] using he
    exact .inr ⟨ev, rfl⟩
  | init | trCmp | envEval | phaseA | phaseB => cases he

/-- Settles O41: the frame of the meaning, and what it adds to the history. -/
theorem onlyGpioSetWritesTheGpioRegister : Obligations.OnlyGpioSetWritesTheGpioRegister := by
  intro i s t h hg
  refine ⟨(exec_next_frame h).gpio hg, newEntries i s, exec_next_hist h, fun e he a v => ?_⟩
  by_cases hi : i = .reset
  · subst hi
    obtain rfl := List.mem_singleton.1 he
    exact HistEntry.noConfusion
  · obtain ⟨_, _, rfl⟩ | ⟨_, rfl⟩ := mem_newEntries_cases hi hg he
    · exact HistEntry.noConfusion
    · exact HistEntry.noConfusion

theorem exec_next_lastWrite {i : Instr} {s t : State} (h : exec i s = .next t) (hi : i ≠ .reset)
    (hg : ∀ l, i ≠ .gpioSet l) : t.lastWrite = s.lastWrite := by
  rw [State.lastWrite_append (exec_next_kept h).cfg (exec_next_hist h)]
  refine foldl_lastWriteNext_eq fun e he => ?_
  obtain ⟨_, _, rfl⟩ | ⟨_, rfl⟩ := mem_newEntries_cases hi hg he
  · rfl
  · rfl

theorem exec_gpioSet_lastWrite {l : Bool} {s t : State} (h : exec (.gpioSet l) s = .next t) :
    t.lastWrite = some (ledWord l) := by
  rw [State.lastWrite_append (exec_next_kept h).cfg (exec_next_hist h)]
  simp [newEntries, lastWriteNext]

/-- A meaning keeps the mirror: GPIO_SET writes all three sides of it, and INIT finds nothing
written. -/
theorem exec_next_mirror {i : Instr} {s t : State} (h : exec i s = .next t) (hi : i ≠ .reset)
    (hinit : i = .init → s.lastWrite = none) (hm : s.Mirror) : t.Mirror := by
  by_cases hg : ∃ l, i = .gpioSet l
  · obtain ⟨l, rfl⟩ := hg
    intro v hv
    obtain rfl := Option.some.inj ((exec_gpioSet_lastWrite h).symm.trans hv)
    obtain ⟨-, rfl⟩ := execGpioSet_next h
    exact ⟨l, rfl, rfl, if_pos rfl⟩
  · have hg : ∀ l, i ≠ .gpioSet l := fun l hl => hg ⟨l, hl⟩
    have hlast := exec_next_lastWrite h hi hg
    intro v hv
    rw [hlast] at hv
    by_cases hi' : i = .init
    · cases (hinit hi').symm.trans hv
    · have hled : i.writesLedOn = false := by
        cases i with
        | reset => exact absurd rfl hi
        | init => exact absurd rfl hi'
        | gpioSet l => exact absurd rfl (hg l)
        | trHi1 | trLo | trHi2 | trCmp | envEval | phaseA | phaseB | logEmit => rfl
      rw [(exec_next_frame h).ledOn hled, (exec_next_frame h).gpio hg]
      exact hm v hv

/-- A meaning keeps the queue sound. -/
theorem exec_next_queueSound {i : Instr} {s t : State} (h : exec i s = .next t)
    (hs : s.QueueSound) : t.QueueSound := by
  obtain ⟨hlen, hev⟩ := hs
  cases i with
  | reset => cases h; exact ⟨Nat.zero_le 2, nofun⟩
  | init =>
    obtain ⟨hd, hr, -⟩ := exec_init_envelope h
    have hq : t.logQ = bannerQueue s.input.banner := by
      obtain ⟨-, rfl⟩ | ⟨-, rfl⟩ := execInit_next h
      · rfl
      · rfl
    rw [State.QueueSound, hd, hr, hq]
    cases s.input.banner <;> simp [bannerQueue]
  | phaseB =>
    obtain ⟨hlen, -, -, -, -, -, hregs⟩ := boundaryQueuesItsEvents s t h
    exact ⟨hlen, hregs⟩
  | logEmit k =>
    obtain ⟨ev, rest, hq, -, ⟨-, rfl⟩ | ⟨-, rfl⟩⟩ := execLogEmit_next h
    · rw [hq] at hlen hev
      exact ⟨(Nat.le_succ _).trans hlen, fun e he => hev e (List.mem_cons_of_mem ev he)⟩
    · exact ⟨hlen, hev⟩
  | trHi1 | trLo | trHi2 | trCmp | envEval | phaseA | gpioSet =>
    have frame := exec_next_frame h
    have henv := frame.envelope rfl
    rw [State.QueueSound, frame.logQ rfl, henv.duty, henv.rising]
    exact ⟨hlen, hev⟩

end Machine

end Sys2Proof

namespace Sys2Proof

namespace Machine

/-! ## A step of a run completes or takes a bus error (spec/41_envelope.md R170, R171) -/

/-- What a meaning answers in a run: a next state, or the bus error of its own label. -/
inductive Progresses (i : Instr) (s : State) : Prop where
  | completes (t : State) (h : exec i s = .next t)
  | busError (a : Nat) (d : Option U32) (error : s.input.busError = true)
      (h : exec i s = .fault (.busError (encode i) a d))

/-- A step with one bus access completes or takes its error, whichever the bus answers. -/
theorem Progresses.of_access {i : Instr} {s t : State} {a : Nat} {d : Option U32}
    (hok : s.input.busError = false → exec i s = .next t)
    (herr : s.input.busError = true → exec i s = .fault (.busError (encode i) a d)) :
    Progresses i s := by
  cases hb : s.input.busError with
  | false => exact .completes t (hok hb)
  | true => exact .busError a d hb (herr hb)

theorem exec_init_timerRead {s : State} (h : s.cfg.initCycleStart = .timerRead) :
    exec .init s = .next { initRegisters s with ctl := encode (.trHi1 .startup) } := by
  simp only [exec, execInit, h, initRegisters]

theorem exec_init_zero {s : State} (h : s.cfg.initCycleStart = .zero) :
    exec .init s = .next
      { initRegisters s with
        cycleStart := .written 0, ctl := afterLog (bannerQueue s.input.banner) } := by
  simp only [exec, execInit, h, initRegisters]

theorem exec_envEval_written {s : State} {now start : U64} (hnow : s.now = .written now)
    (hstart : s.cycleStart = .written start) :
    exec .envEval s = .next
      { s with
        elapsed := .written (now - start)
        ctl := if s.cfg.pwmPeriod ≤ now - start then encode .phaseB else encode .phaseA } := by
  simp only [exec, execEnvEval, hnow, hstart, needReg_written]

theorem exec_phaseA_written {s : State} {d : U32} {e : U64} {l r : Bool} {cc : U32}
    (hd : s.duty = .written d) (he : s.elapsed = .written e) (hl : s.ledOn = .written l)
    (hr : s.rising = .written r) (hcc : s.cycleCount = .written cc) :
    exec .phaseA s =
      if envWF s.cfg d r cc then
        .next { s with ctl := if desiredLevel s.cfg d e = l then encode (.trHi1 .loop)
                              else encode (.gpioSet (desiredLevel s.cfg d e)) }
      else .fault (.envInvariant d r cc) := by
  simp only [exec, execPhaseA, hd, he, hl, hr, hcc, needReg_written]

/-- The state after a boundary event that leaves these registers, with this flip. -/
def boundaryState (s : State) (now : U64) (cc d : U32) (r : Bool) (flip : Option LogKind) : State :=
  { s with
    cycleStart := .written now, cycleCount := .written cc, duty := .written d, rising := .written r
    logQ := boundaryQueue s.input flip d r, ctl := afterLog (boundaryQueue s.input flip d r) }

theorem exec_phaseB_written {s : State} {now : U64} {cc d : U32} {r : Bool}
    (hnow : s.now = .written now) (hcc : s.cycleCount = .written cc) (hd : s.duty = .written d)
    (hr : s.rising = .written r) :
    exec .phaseB s =
      if envWF s.cfg d r cc then
        .next (boundaryState s now (nextCount s.cfg cc) (nextDuty s.cfg d r cc)
          (nextRising s.cfg d r cc) (flipEvent s.cfg d r cc))
      else .fault (.envInvariant d r cc) := by
  simp only [exec, execPhaseB, hnow, hcc, hd, hr, needReg_written, boundaryState]

theorem exec_gpioSet_answered {l : Bool} {s : State} (hb : s.input.busError = false) :
    exec (.gpioSet l) s = .next
      { s with
        gpio := ledWord l, ledOn := .written l, ctl := encode (.trHi1 .loop)
        hist := s.hist ++ [.wr s.cfg.gpioAddr (ledWord l)] } := by
  rw [exec, execGpioSet, memWrite_ok hb]
  simp only [State.deviceWrite, State.record, if_true]

theorem exec_gpioSet_error {l : Bool} {s : State} (hb : s.input.busError = true) :
    exec (.gpioSet l) s =
      .fault (.busError (encode (.gpioSet l)) s.cfg.gpioAddr (some (ledWord l))) := by
  rw [exec, execGpioSet, memWrite_error hb]

/-- An offer of the queue's head is accepted. -/
theorem exec_logEmit_accepted {ev : LogEvent} {rest : List LogEvent} {s : State}
    (hq : s.logQ = ev :: rest) (ha : s.input.logAccept = true) :
    exec (.logEmit ev.kind) s =
      .next { s.acceptLog ev with logQ := rest, ctl := afterLog rest } := by
  rw [exec_logEmit_head hq, logOffer_accepted ha]

/-- An offer of the queue's head holds. -/
theorem exec_logEmit_held {ev : LogEvent} {rest : List LogEvent} {s : State}
    (hq : s.logQ = ev :: rest) (ha : s.input.logAccept = false) :
    exec (.logEmit ev.kind) s = .next s := by
  rw [exec_logEmit_head hq, logOffer_held ha]

/-- A step that has what it needs completes or takes a bus error. -/
theorem exec_progresses {i : Instr} {s : State} (hcfg : s.cfg.wf = true) (hready : s.Ready i) :
    Progresses i s := by
  cases i with
  | reset => exact hready.elim
  | init =>
    cases hmode : s.cfg.initCycleStart with
    | timerRead => exact .completes _ (exec_init_timerRead hmode)
    | zero => exact .completes _ (exec_init_zero hmode)
  | trHi1 c => exact .of_access exec_trHi1_answered exec_trHi1_error
  | trLo c => exact .of_access (exec_trLo_answered hcfg) exec_trLo_error
  | trHi2 c => exact .of_access exec_trHi2_answered exec_trHi2_error
  | trCmp c =>
    obtain ⟨-, ⟨a, h1⟩, ⟨lo, hlo⟩, ⟨b, h2⟩⟩ := hready
    by_cases heq : a = b
    · subst heq
      exact .completes _ (exec_trCmp_complete h1 hlo h2)
    · exact .completes _ (exec_trCmp_retry h1 hlo h2 heq)
  | envEval =>
    obtain ⟨⟨-, ⟨start, hstart⟩, -⟩, now, hnow⟩ := hready
    exact .completes _ (exec_envEval_written hnow hstart)
  | phaseA =>
    obtain ⟨⟨⟨⟨⟨d, r, cc, hd, hr, hcc, hwf⟩, ⟨l, hl⟩, -⟩, -⟩, -⟩, e, he, -⟩ := hready
    exact .completes _ ((exec_phaseA_written hd he hl hr hcc).trans (if_pos hwf))
  | phaseB =>
    obtain ⟨⟨⟨⟨⟨d, r, cc, hd, hr, hcc, hwf⟩, -⟩, -⟩, now, hnow⟩, -⟩ := hready
    exact .completes _ ((exec_phaseB_written hnow hcc hd hr).trans (if_pos hwf))
  | gpioSet l => exact .of_access exec_gpioSet_answered exec_gpioSet_error
  | logEmit k =>
    obtain ⟨-, -, ev, rest, hq, rfl, -⟩ := hready
    cases ha : s.input.logAccept with
    | true => exact .completes _ (exec_logEmit_accepted hq ha)
    | false => exact .completes _ (exec_logEmit_held hq ha)

/-! ## What follows a step of a run (spec/41_envelope.md R171, R173) -/

/-- `ctl` of `t` names one of these steps, which has what it needs. -/
def State.EntersOneOf (t : State) (js : List Instr) : Prop :=
  ∃ j ∈ js, t.ctl = encode j ∧ t.Ready j

/-- The steps that may follow the end of a queue or the event at its head. -/
def loggingSteps : List Instr := [.logEmit .status, .logEmit .peak, .logEmit .trough, .trHi1 .loop]

/-- After a boundary or a LOG_EMIT the queue, which holds no banner, is emptied first. -/
theorem State.enters_logging {t : State} (hstarted : t.Started) (hstart : t.cycleStart.Holds)
    (hctl : t.ctl = afterLog t.logQ) (hq : ∀ ev ∈ t.logQ, ev.kind ≠ .banner) :
    t.EntersOneOf loggingSteps := by
  obtain ⟨hnil, hnext⟩ | ⟨ev, rest, hcons, hnext⟩ := afterLog_cases t.logQ
  · exact ⟨.trHi1 .loop, by decide, hctl.trans hnext, hstarted, hstart, hnil⟩
  · rw [hcons] at hq
    refine ⟨.logEmit ev.kind, ?_, hctl.trans hnext, hstarted, hstart, ev, rest, hcons, rfl,
      fun e he => hq e (List.mem_cons_of_mem ev he)⟩
    obtain hk | hk | hk := LogKind.cases_of_ne_banner (hq ev List.mem_cons_self) <;>
      simp [loggingSteps, hk]

/-- At the end of the start-up the banner, if it is queued, is offered first. -/
theorem State.enters_startup {t : State} (hstarted : t.Started) (hstart : t.cycleStart.Holds)
    (hctl : t.ctl = afterLog t.logQ) (hq : t.logQ = [] ∨ t.logQ = [⟨.banner, 0, true⟩]) :
    t.EntersOneOf [.logEmit .banner, .trHi1 .loop] := by
  obtain hnil | hbanner := hq
  · exact ⟨.trHi1 .loop, by decide, by rw [hctl, hnil, afterLog_nil], hstarted, hstart, hnil⟩
  · exact ⟨.logEmit .banner, by decide, by rw [hctl, hbanner, afterLog_cons], hstarted, hstart, _,
      _, hbanner, rfl, nofun⟩

theorem bannerQueue_cases (drawn : Bool) :
    bannerQueue drawn = [] ∨ bannerQueue drawn = [⟨.banner, 0, true⟩] := by
  cases drawn with
  | false => exact .inl rfl
  | true => exact .inr rfl

/-- A completed start-up read ends the start-up, and a completed loop read is evaluated. -/
theorem completeRead_enters {c : Ctx} {v : U64} {s : State} (hread : s.Reading c) :
    (completeRead c v s).EntersOneOf (successors s.cfg (.trCmp c)) := by
  obtain ⟨⟨henv, hled, -⟩, hctx⟩ := hread
  cases c with
  | startup =>
    obtain ⟨j, hj, hctl, hready⟩ := State.enters_startup (t := completeRead .startup v s)
      ⟨henv, hled, _, rfl⟩ ⟨v, rfl⟩ rfl hctx
    exact ⟨j, List.mem_cons_of_mem _ hj, hctl, hready⟩
  | loop => exact ⟨.envEval, by simp [successors], rfl, ⟨⟨henv, hled, _, rfl⟩, hctx⟩, v, rfl⟩

/-- A failed attempt is started again with one more failure counted. -/
theorem retryRead_enters {c : Ctx} {s : State} (hread : s.Reading c) :
    (retryRead c s).EntersOneOf (successors s.cfg (.trCmp c)) := by
  obtain ⟨⟨henv, hled, n, hn⟩, hctx⟩ := hread
  have hghost : (retryRead c s).trRetries = .written (n + 1) := by
    rw [retryRead, hn, Cell.map_written]
  refine ⟨.trHi1 c, ?_, rfl, ⟨henv, hled, _, hghost⟩, hctx⟩
  cases c with
  | startup => exact List.mem_cons_self
  | loop => exact List.mem_cons_self

/-- A step of a run that completes and does not hold enters a successor of the step language that
has what it needs. -/
theorem exec_next_enters {i : Instr} {s t : State} (hcfg : s.cfg.wf = true) (hready : s.Ready i)
    (h : exec i s = .next t) :
    (∃ k, i = .logEmit k ∧ t = s ∧ s.input.logAccept = false) ∨
      t.EntersOneOf (successors s.cfg i) := by
  cases i with
  | reset => exact hready.elim
  | init =>
    right
    have henv := exec_init_envStarted hcfg h
    obtain ⟨hmode, rfl⟩ | ⟨hmode, rfl⟩ := execInit_next h <;> rw [successors, hmode]
    · exact ⟨.trHi1 .startup, by decide, rfl, ⟨henv, ⟨_, rfl⟩, ⟨_, rfl⟩⟩, bannerQueue_cases _⟩
    · exact State.enters_startup ⟨henv, ⟨_, rfl⟩, ⟨_, rfl⟩⟩ ⟨_, rfl⟩ rfl (bannerQueue_cases _)
  | trHi1 c =>
    obtain ⟨-, rfl⟩ := execTrHi1_next h
    exact .inr ⟨.trLo c, List.mem_singleton.2 rfl, rfl, hready, _, rfl⟩
  | trLo c =>
    obtain ⟨-, v, -, rfl⟩ := execTrLo_next h
    obtain ⟨hread, h1⟩ := hready
    exact .inr ⟨.trHi2 c, List.mem_singleton.2 rfl, rfl, hread, h1, _, rfl⟩
  | trHi2 c =>
    obtain ⟨-, rfl⟩ := execTrHi2_next h
    obtain ⟨hread, h1, hlo⟩ := hready
    exact .inr ⟨.trCmp c, List.mem_singleton.2 rfl, rfl, hread, h1, hlo, _, rfl⟩
  | trCmp c =>
    obtain ⟨hread, -⟩ := hready
    obtain ⟨h1, lo, h2, -, -, -, ⟨-, rfl⟩ | ⟨-, rfl⟩⟩ := execTrCmp_next h
    · exact .inr (completeRead_enters hread)
    · exact .inr (retryRead_enters hread)
  | envEval =>
    obtain ⟨now, start, -, -, rfl⟩ := execEnvEval_next h
    right
    by_cases hle : s.cfg.pwmPeriod ≤ now - start
    · exact ⟨.phaseB, by simp [successors], if_pos hle, hready, _, rfl, hle⟩
    · exact ⟨.phaseA, by simp [successors], if_neg hle, hready, _, rfl, BitVec.not_le.1 hle⟩
  | phaseA =>
    obtain ⟨d, e, l, r, cc, -, -, hl, -, -, -, rfl⟩ := execPhaseA_next h
    obtain ⟨⟨hread, -⟩, -⟩ := hready
    right
    by_cases hsame : desiredLevel s.cfg d e = l
    · exact ⟨.trHi1 .loop, by simp [successors], if_pos hsame, hread⟩
    · refine ⟨.gpioSet (desiredLevel s.cfg d e), ?_, if_neg hsame, hread, ?_⟩
      · cases desiredLevel s.cfg d e <;> simp [successors]
      · rw [Bool.eq_not_of_ne hsame, Bool.not_not]
        exact hl
  | phaseB =>
    obtain ⟨-, -, -, -, hbanner, -⟩ := boundaryQueuesItsEvents s t h
    have henv := exec_phaseB_envStarted h
    obtain ⟨now, cc, d, r, -, -, -, -, -, q, -, rfl⟩ := execPhaseB_next h
    obtain ⟨⟨⟨⟨-, hled, hretries⟩, -⟩, -⟩, -⟩ := hready
    exact .inr (State.enters_logging ⟨henv, hled, hretries⟩ ⟨now, rfl⟩ rfl fun ev hev hk =>
      hbanner (hk ▸ List.mem_map_of_mem hev))
  | gpioSet l =>
    obtain ⟨-, rfl⟩ := execGpioSet_next h
    obtain ⟨⟨⟨henv, -, hretries⟩, hloop⟩, -⟩ := hready
    exact .inr ⟨.trHi1 .loop, List.mem_singleton.2 rfl, rfl, ⟨henv, ⟨l, rfl⟩, hretries⟩, hloop⟩
  | logEmit k =>
    obtain ⟨hstarted, hstart, ev, rest, hq, -, hrest⟩ := hready
    obtain ⟨ev', rest', hq', -, ⟨ha, rfl⟩ | ⟨ha, rfl⟩⟩ := execLogEmit_next h
    · cases hq.symm.trans hq'
      exact .inr (State.enters_logging hstarted hstart rfl hrest)
    · exact .inl ⟨k, rfl, rfl, ha⟩

/-! ## The run's invariant (spec/10_state.md R37, spec/41_envelope.md R170, R171) -/

theorem State.Ready.ne_reset {s : State} {i : Instr} (h : s.Ready i) : i ≠ .reset :=
  fun hi => by subst hi; exact h

/-- The advance of CNT touches nothing a step needs. -/
theorem State.Ready.advanceCnt {s : State} {i : Instr} (h : s.Ready i) : s.advanceCnt.Ready i := by
  cases i <;> exact h

theorem State.Ready.recordFault {s : State} {i : Instr} (h : s.Ready i) (f : Fault) :
    (s.recordFault f).Ready i := by
  cases i with
  | init => exact (s.lastWrite_recordFault f).trans h
  | reset | trHi1 | trLo | trHi2 | trCmp | envEval | phaseA | phaseB | gpioSet | logEmit => exact h

/-- The step `ctl` names has what it needs. -/
theorem State.Inv.ready_of_decode {s : State} (h : s.Inv) {i : Instr}
    (hd : decode s.ctl = .step i) : s.Ready i := by
  obtain ⟨j, hj, hready⟩ := h.ready
  cases hd.symm.trans hj
  exact hready

theorem State.Inv.resetBlock {s : State} (h : s.Inv) : s.resetBlock.Inv where
  cfgWF := h.cfgWF
  ready := ⟨.init, labelDecodesToItsStep .init, s.lastWrite_resetBlock⟩
  queue := ⟨Nat.zero_le 2, nofun⟩
  mirror _ hv := nomatch s.lastWrite_resetBlock.symm.trans hv
  notRefused := h.notRefused
  faultsBus := h.faultsBus
  stopBus := nofun

theorem State.Inv.advanceCnt {s : State} (h : s.Inv) : s.advanceCnt.Inv where
  cfgWF := h.cfgWF
  ready := by obtain ⟨i, hd, hr⟩ := h.ready; exact ⟨i, hd, hr.advanceCnt⟩
  queue := h.queue
  mirror := h.mirror
  notRefused := h.notRefused
  faultsBus := h.faultsBus
  stopBus := h.stopBus

/-- A recorded bus error leaves the block as it was. -/
theorem State.Inv.recordFault {s : State} (h : s.Inv) {f : Fault} (hf : f.isBusError = true) :
    (s.recordFault f).Inv where
  cfgWF := h.cfgWF
  ready := by obtain ⟨i, hd, hr⟩ := h.ready; exact ⟨i, hd, hr.recordFault f⟩
  queue := h.queue
  mirror v hv := h.mirror v ((s.lastWrite_recordFault f).symm.trans hv)
  notRefused := h.notRefused
  faultsBus g hg := by
    obtain hg | hg := List.mem_append.1 hg
    · exact h.faultsBus g hg
    · rwa [List.mem_singleton.1 hg]
  stopBus r hr := ⟨f, (Option.some.inj hr).symm, hf⟩

theorem State.Inv.consume {s : State} (h : s.Inv) : s.consume.Inv where
  cfgWF := h.cfgWF
  ready := by
    obtain ⟨i, hd, hr⟩ := h.ready
    exact ⟨i, hd, by cases i <;> exact hr⟩
  queue := h.queue
  mirror := h.mirror
  notRefused := h.notRefused
  faultsBus := h.faultsBus
  stopBus := h.stopBus

/-- A meaning of a run leads from the invariant to the invariant. -/
theorem exec_next_inv {i : Instr} {s t : State} (h : s.Inv) (hstop : s.stop = none)
    (hready : s.Ready i) (hexec : exec i s = .next t) : t.Inv where
  cfgWF := (exec_next_kept hexec).cfg ▸ h.cfgWF
  ready := by
    obtain ⟨_, _, rfl, _⟩ | ⟨j, _, hctl, hj⟩ := exec_next_enters h.cfgWF hready hexec
    · exact h.ready
    · exact ⟨j, by rw [hctl, labelDecodesToItsStep], hj⟩
  queue := exec_next_queueSound hexec h.queue
  mirror := exec_next_mirror hexec hready.ne_reset (fun hi => by subst hi; exact hready) h.mirror
  notRefused := (exec_next_kept hexec).refused.trans h.notRefused
  faultsBus := (exec_next_kept hexec).faults ▸ h.faultsBus
  stopBus r hr := by
    rw [(exec_next_frame hexec).stop hready.ne_reset, hstop] at hr
    cases hr

/-- What `step` does in a state of a run that is not stopped, or in which RESET is asserted. -/
inductive RunStep (s : State) : Prop where
  | reset (asserted : s.input.reset = true) (hstep : step s = .next s.resetBlock.consume)
  | completes (i : Instr) (t : State) (hreset : s.input.reset = false) (hstop : s.stop = none)
      (hdecode : decode s.ctl = .step i) (hready : s.advanceCnt.Ready i)
      (hexec : exec i s.advanceCnt = .next t) (hstep : step s = .next t.consume)
  | busError (i : Instr) (a : Nat) (d : Option U32) (hdecode : decode s.ctl = .step i)
      (error : s.input.busError = true)
      (hstep : step s =
        .next (s.advanceCnt.recordFault (.busError (encode i) a d)).consume)

theorem State.Inv.runStep {s : State} (h : s.Inv) (hgo : s.input.reset = false → s.stop = none) :
    RunStep s := by
  cases hreset : s.input.reset with
  | true => exact .reset hreset (step_of_run (State.select_reset h.cfgWF hreset))
  | false =>
    have hstop := hgo hreset
    obtain ⟨i, hdecode, hready⟩ := h.ready
    have hrun := stepRunsTheLabelInCtl s i h.cfgWF hreset hstop hdecode hready.ne_reset
    obtain ⟨onNext, onFault, -⟩ := hrun
    cases exec_progresses (s := s.advanceCnt) h.cfgWF hready.advanceCnt with
    | completes t ht => exact .completes i t hreset hstop hdecode hready.advanceCnt ht (onNext t ht)
    | busError a d error hf => exact .busError i a d hdecode error (onFault _ hf)

/-- Settles O55: RESET, a meaning that completes and a recorded bus error each keep the invariant,
and a state of the invariant has no other next state. -/
theorem everyStepKeepsTheRunInvariant : Obligations.EveryStepKeepsTheRunInvariant := by
  intro s t h hst
  have hgo : s.input.reset = false → s.stop = none := fun hreset => by
    obtain ⟨-, ⟨hr, -⟩ | ⟨-, hstop, -⟩⟩ := step_next_cases hst
    · exact absurd (hreset.symm.trans hr) Bool.false_ne_true
    · exact hstop
  cases h.runStep hgo with
  | reset _ hstep =>
    cases hstep.symm.trans hst
    exact h.resetBlock.consume
  | completes i u _ hstop _ hready hexec hstep =>
    cases hstep.symm.trans hst
    exact (exec_next_inv h.advanceCnt hstop hready hexec).consume
  | busError i a d _ _ hstep =>
    cases hstep.symm.trans hst
    exact (h.advanceCnt.recordFault rfl).consume

/-- Settles O57: a running block resets, completes, or takes the bus error of the step in `ctl`. -/
theorem onlyABusErrorStopsARun : Obligations.OnlyABusErrorStopsARun := by
  intro s h hstop
  cases h.runStep fun _ => hstop with
  | reset _ hstep => exact ⟨_, hstep, h.notRefused, fun _ => ⟨rfl, rfl⟩, fun hne => absurd rfl hne⟩
  | completes i u _ _ _ hready hexec hstep =>
    have kept := exec_next_kept hexec
    have hustop : u.stop = none := ((exec_next_frame hexec).stop hready.ne_reset).trans hstop
    exact ⟨_, hstep, kept.refused.trans h.notRefused, fun _ => ⟨hustop, kept.faults⟩,
      fun hne => absurd hustop hne⟩
  | busError i a d hdecode error hstep =>
    exact ⟨_, hstep, h.notRefused, fun hok => absurd (hok.symm.trans error) Bool.false_ne_true,
      fun _ => ⟨_, a, d, rfl, decodedStepHasThatLabel s.ctl i hdecode⟩⟩

/-- Settles O58: a completed step holds or enters one of its successors; a bus error stops the
block. -/
theorem stepsFollowTheStepLanguage : Obligations.StepsFollowTheStepLanguage := by
  intro s t i h hstop hreset hdecode hst hrunning
  cases h.runStep fun _ => hstop with
  | reset asserted => exact absurd (hreset.symm.trans asserted) Bool.false_ne_true
  | completes j u _ _ hj hready hexec hstep =>
    cases hdecode.symm.trans hj
    cases hstep.symm.trans hst
    obtain ⟨k, hk, rfl, hheld⟩ | ⟨j, hmem, hctl, -⟩ :=
      exec_next_enters (s := s.advanceCnt) h.cfgWF hready hexec
    · exact .inl ⟨k, hk, rfl, rfl, hheld⟩
    · exact .inr ⟨j, hmem, hctl⟩
  | busError i a d _ _ hstep =>
    cases hstep.symm.trans hst
    cases hrunning

/-- Settles O43: GPIO_SET is ready only with `led_on` at the other level, which `G` mirrors since
the first write. -/
theorem noRedundantGpioWrite : Obligations.NoRedundantGpioWrite := by
  intro s t l v h hlast hctl hstop hreset hb hst
  have hready : s.Ready (.gpioSet l) :=
    h.ready_of_decode (by rw [hctl, labelDecodesToItsStep])
  obtain ⟨-, hled⟩ := hready
  obtain ⟨l', hled', hv, hgpio⟩ := h.mirror v hlast
  cases hled.symm.trans hled'
  obtain rfl := step_next_of_exec hstop hreset hctl nofun
    (exec_gpioSet_answered (s := s.advanceCnt) hb) hst
  refine ⟨rfl, fun heq => ?_⟩
  have hwords : ledWord l = ledWord (!l) := heq.trans (hgpio.trans hv)
  cases l with
  | false => exact absurd hwords (by decide)
  | true => exact absurd hwords (by decide)

end Machine

end Sys2Proof

namespace Sys2Proof

namespace Machine

/-! ## How the two phases and GPIO_SET are entered (spec/41_envelope.md R136, R141) -/

/-- What a step may name in `ctl`, in any state: the edges of the step graph (R173) by kind
alone. -/
def mayName : Instr → Instr → Bool
  | .reset, .init | .init, .trHi1 _ | .init, .logEmit _ | .trHi1 _, .trLo _ | .trLo _, .trHi2 _
  | .trHi2 _, .trCmp _ | .trCmp _, .trHi1 _ | .trCmp _, .logEmit _ | .trCmp _, .envEval
  | .envEval, .phaseA | .envEval, .phaseB | .phaseA, .trHi1 _ | .phaseA, .gpioSet _
  | .phaseB, .trHi1 _ | .phaseB, .logEmit _ | .gpioSet _, .trHi1 _ | .logEmit _, .trHi1 _
  | .logEmit _, .logEmit _ => true
  | _, _ => false

/-- `ctl` holds the label of a step that `i` may name. -/
def State.NamedBy (t : State) (i : Instr) : Prop := ∃ j, t.ctl = encode j ∧ mayName i j = true

theorem State.namedBy_of_afterLog {t : State} {i : Instr} {q : List LogEvent}
    (hctl : t.ctl = afterLog q) (hread : mayName i (.trHi1 .loop) = true)
    (hemit : ∀ k, mayName i (.logEmit k) = true) : t.NamedBy i := by
  obtain ⟨-, hnext⟩ | ⟨ev, -, -, hnext⟩ := afterLog_cases q
  · exact ⟨_, hctl.trans hnext, hread⟩
  · exact ⟨_, hctl.trans hnext, hemit ev.kind⟩

theorem completeRead_namedBy (c : Ctx) (v : U64) (s : State) :
    (completeRead c v s).NamedBy (.trCmp c) := by
  cases c with
  | startup => exact State.namedBy_of_afterLog (q := s.logQ) rfl rfl fun _ => rfl
  | loop => exact ⟨.envEval, rfl, rfl⟩

/-- A meaning that does not hold names one of the steps that may follow its step. -/
theorem exec_next_namedBy {i : Instr} {s t : State} (h : exec i s = .next t) (hne : t ≠ s) :
    t.NamedBy i := by
  cases i with
  | reset => cases h; exact ⟨.init, rfl, rfl⟩
  | init =>
    obtain ⟨-, rfl⟩ | ⟨-, rfl⟩ := execInit_next h
    · exact ⟨.trHi1 .startup, rfl, rfl⟩
    · exact State.namedBy_of_afterLog rfl rfl fun _ => rfl
  | trHi1 c => obtain ⟨-, rfl⟩ := execTrHi1_next h; exact ⟨.trLo c, rfl, rfl⟩
  | trLo c => obtain ⟨-, v, -, rfl⟩ := execTrLo_next h; exact ⟨.trHi2 c, rfl, rfl⟩
  | trHi2 c => obtain ⟨-, rfl⟩ := execTrHi2_next h; exact ⟨.trCmp c, rfl, rfl⟩
  | trCmp c =>
    obtain ⟨h1, lo, h2, -, -, -, ⟨-, rfl⟩ | ⟨-, rfl⟩⟩ := execTrCmp_next h
    · exact completeRead_namedBy c _ s
    · exact ⟨.trHi1 c, rfl, rfl⟩
  | envEval =>
    obtain ⟨now, start, -, -, rfl⟩ := execEnvEval_next h
    by_cases hle : s.cfg.pwmPeriod ≤ now - start
    · exact ⟨.phaseB, if_pos hle, rfl⟩
    · exact ⟨.phaseA, if_neg hle, rfl⟩
  | phaseA =>
    obtain ⟨d, e, l, r, cc, -, -, -, -, -, -, rfl⟩ := execPhaseA_next h
    by_cases hsame : desiredLevel s.cfg d e = l
    · exact ⟨.trHi1 .loop, if_pos hsame, rfl⟩
    · exact ⟨.gpioSet _, if_neg hsame, rfl⟩
  | phaseB =>
    obtain ⟨now, cc, d, r, -, -, -, -, -, q, -, rfl⟩ := execPhaseB_next h
    exact State.namedBy_of_afterLog (q := q) rfl rfl fun _ => rfl
  | gpioSet l => obtain ⟨-, rfl⟩ := execGpioSet_next h; exact ⟨.trHi1 .loop, rfl, rfl⟩
  | logEmit k =>
    obtain ⟨ev, rest, -, -, ⟨-, rfl⟩ | ⟨-, rfl⟩⟩ := execLogEmit_next h
    · exact State.namedBy_of_afterLog (q := rest) rfl rfl fun _ => rfl
    · exact absurd rfl hne

theorem mayName_phaseA {i : Instr} (h : mayName i .phaseA = true) : i = .envEval := by
  cases i with
  | envEval => rfl
  | reset | init | trHi1 | trLo | trHi2 | trCmp | phaseA | phaseB | gpioSet | logEmit => cases h

theorem mayName_gpioSet {i : Instr} {l : Bool} (h : mayName i (.gpioSet l) = true) :
    i = .phaseA := by
  cases i with
  | phaseA => rfl
  | reset | init | trHi1 | trLo | trHi2 | trCmp | envEval | phaseB | gpioSet | logEmit => cases h

/-- The step that named `j` in `ctl` may be followed by `j`. -/
theorem exec_next_mayName {i j : Instr} {s t : State} (h : exec i s = .next t)
    (hctl : t.ctl = encode j) (hne : t ≠ s) : mayName i j = true := by
  obtain ⟨j', hj', hname⟩ := exec_next_namedBy h hne
  rwa [encode_eq_iff.1 (hctl.symm.trans hj')]

/-- Settles O34: only ENV_EVAL names PHASE_A, and PHASE_B where `elapsed` reaches PWM_PERIOD. -/
theorem phaseAOnlyWithinThePeriod : Obligations.PhaseAOnlyWithinThePeriod := by
  intro i s t h hctl hne
  obtain rfl := mayName_phaseA (exec_next_mayName h hctl hne)
  obtain ⟨now, start, -, -, rfl⟩ := execEnvEval_next h
  refine ⟨rfl, now - start, rfl, BitVec.not_le.1 fun hle => ?_⟩
  rw [if_pos hle, encode_eq_iff] at hctl
  cases hctl

/-- Settles O42: only PHASE_A names GPIO_SET, with the desired level and where `led_on` is
another. -/
theorem gpioSetIsEnteredOnlyOnAChange : Obligations.GpioSetIsEnteredOnlyOnAChange := by
  intro i s t l h hctl hne
  obtain rfl := mayName_gpioSet (exec_next_mayName h hctl hne)
  obtain ⟨d, e, l', r, cc, hd, he, hl, -, -, -, rfl⟩ := execPhaseA_next h
  by_cases hsame : desiredLevel s.cfg d e = l'
  · rw [if_pos hsame, encode_eq_iff] at hctl
    cases hctl
  · rw [if_neg hsame, encode_eq_iff] at hctl
    cases hctl
    exact ⟨rfl, by rw [hl, Bool.eq_not_of_ne hsame, Bool.not_not], d, e, hd, he, rfl⟩

/-! ## The on-time (spec/41_envelope.md R142 to R144) -/

theorem onTicks_mono (cfg : Cfg) {d d' : U32} (h : d ≤ d') : onTicks cfg d ≤ onTicks cfg d' :=
  Nat.div_le_div_right (Nat.mul_le_mul_left _ h)

theorem onTicks_zero (cfg : Cfg) : onTicks cfg 0 = 0 := by simp [onTicks]

theorem onTicks_full {cfg : Cfg} (h : 1 ≤ cfg.dutySteps.toNat) :
    onTicks cfg cfg.dutySteps = cfg.pwmPeriod.toNat :=
  Nat.mul_div_cancel _ h

theorem onTicks_lt {cfg : Cfg} {d : U32} (hp : 1 ≤ cfg.pwmPeriod.toNat) (h : d < cfg.dutySteps) :
    onTicks cfg d < cfg.pwmPeriod.toNat :=
  Nat.div_lt_of_lt_mul (by rw [Nat.mul_comm]; exact Nat.mul_lt_mul_of_pos_right h hp)

/-- Settles O38: below DUTY_STEPS the quotient is below the period, and it is the period there. -/
theorem onTicksBounds : Obligations.OnTicksBounds := by
  intro cfg d hwf hd
  obtain ⟨⟨hperiod, hsteps, -⟩, hfits, -⟩ := (configWellFormedIff cfg).1 hwf
  have hfull := onTicks_full hsteps
  refine ⟨rfl, (onTicks_mono cfg hd).trans hfull.le, ?_, ⟨fun heq => ?_, fun heq => heq ▸ hfull⟩,
    fun d' hle => onTicks_mono cfg hle, (Nat.mul_le_mul_left _ hd).trans hfits⟩
  · rw [onTicks, Nat.div_eq_zero_iff]
    exact or_iff_right (by omega)
  · by_contra hne
    have hlt := onTicks_lt hperiod (show d < cfg.dutySteps by bv_omega)
    omega

/-- Settles O39: a longer `elapsed` is no further below the on-time, which is 0 at `duty` 0 and the
whole period at DUTY_STEPS. -/
theorem desiredLevelFallsOnce : Obligations.DesiredLevelFallsOnce := by
  intro cfg d e e'
  simp only [desiredLevel, decide_eq_true_eq, decide_eq_false_iff_not]
  refine ⟨fun hle hlt => Nat.lt_of_le_of_lt hle hlt, ?_, fun hwf he => ?_⟩
  · rw [onTicks_zero]
    exact Nat.not_lt_zero _
  · obtain ⟨⟨-, hsteps, -⟩, -⟩ := (configWellFormedIff cfg).1 hwf
    rw [onTicks_full hsteps]
    exact he

/-! ## The duty step and the flip (spec/41_envelope.md R151, R152) -/

/-- Settles O46: but for INIT and RESET only PHASE_B writes `duty`, and a boundary event that only
counts leaves it. -/
theorem dutyChangesOnlyInADutyStep : Obligations.DutyChangesOnlyInADutyStep := by
  intro i s t h hinit hreset hne
  have hi : i = .phaseB := by
    by_contra hb
    exact hne ((exec_next_frame h).envelope (i.writesEnvelope_eq_false hreset hinit hb)).duty
  subst hi
  obtain ⟨d, r, cc, ⟨hd, hr, hcc⟩, hwf, hd', -, -⟩ := exec_phaseB_envelope h
  refine ⟨rfl, d, _, cc, hd, hd', hcc, ?_⟩
  simp only [envelopeNext]
  cases boundaryCase hwf with
  | counts _ _ _ duty => exact absurd (hd'.trans ((congrArg Cell.written duty).trans hd.symm)) hne
  | rises last up _ _ duty nat => exact ⟨last, .inl ⟨up ▸ hr, duty ▸ nat⟩⟩
  | peaks last up _ _ duty nat => exact ⟨last, .inl ⟨up ▸ hr, duty ▸ nat⟩⟩
  | falls last down _ _ duty nat => exact ⟨last, .inr ⟨down ▸ hr, duty ▸ nat⟩⟩
  | troughs last down _ _ duty nat => exact ⟨last, .inr ⟨down ▸ hr, duty ▸ nat⟩⟩

/-- Whether a boundary event turns the direction of well-formed registers: where `duty` comes to
DUTY_STEPS or to 0. -/
theorem nextRising_iff {cfg : Cfg} {d : U32} {r : Bool} {cc : U32} (h : envWF cfg d r cc = true) :
    (r = true → (nextRising cfg d r cc = false ↔
      nextDuty cfg d r cc = cfg.dutySteps ∧ nextDuty cfg d r cc ≠ d)) ∧
    (r = false → (nextRising cfg d r cc = true ↔
      nextDuty cfg d r cc = 0 ∧ nextDuty cfg d r cc ≠ d)) := by
  cases boundaryCase h with
  | counts _ _ _ duty rising => simp [duty, rising]
  | rises _ up before _ duty nat rising =>
    subst up
    have hbelow : d + 1 ≠ cfg.dutySteps := by bv_omega
    rw [duty, rising]
    exact ⟨fun _ => iff_of_false nofun fun hreach => hbelow hreach.1, nofun⟩
  | peaks _ up top _ duty nat rising =>
    subst up
    have hreach : d + 1 = cfg.dutySteps ∧ d + 1 ≠ d := by constructor <;> bv_omega
    rw [duty, rising]
    exact ⟨fun _ => iff_of_true rfl hreach, nofun⟩
  | falls _ down before _ duty nat rising =>
    subst down
    have habove : d - 1 ≠ 0 := by bv_omega
    rw [duty, rising]
    exact ⟨nofun, fun _ => iff_of_false nofun fun hreach => habove hreach.1⟩
  | troughs _ down bottom _ duty nat rising =>
    subst down
    have hreach : d - 1 = 0 ∧ d - 1 ≠ d := by constructor <;> bv_omega
    rw [duty, rising]
    exact ⟨nofun, fun _ => iff_of_true rfl hreach⟩

/-- Settles O47: PHASE_B turns the direction as the boundary event does, and the other meanings but
INIT and RESET do not write it. -/
theorem directionFlipsExactlyAtTheExtremes : Obligations.DirectionFlipsExactlyAtTheExtremes := by
  refine ⟨fun s t d d' r r' h hd hr hd' hr' => ?_, fun i s t h hb hinit hreset => ?_⟩
  · obtain ⟨d₀, r₀, cc, ⟨hd₀, hr₀, -⟩, hwf, hdn, hrn, -⟩ := exec_phaseB_envelope h
    cases hd.symm.trans hd₀
    cases hr.symm.trans hr₀
    cases hd'.symm.trans hdn
    cases hr'.symm.trans hrn
    exact nextRising_iff hwf
  · exact ((exec_next_frame h).envelope (i.writesEnvelope_eq_false hreset hinit hb)).rising

end Machine

end Sys2Proof

namespace Sys2Proof

namespace Machine

/-! ## The results of the envelope steps (spec/41_envelope.md R130 to R160) -/

/-- The first of some registers that is unwritten stops the step: a read faults on its own register,
or leaves the question to the reads after it. -/
theorem needReg_lacks {α : Type} {s : State} {c : Cell α} {r : RegName} {rs : List RegName}
    {k : α → Result} {later : Prop} (hc : c = .unwritten ↔ s.Lacks r) (h : s.Lacks r ∨ later)
    (hlater : ∀ v, later → ∃ q ∈ rs, s.Lacks q ∧ k v = .fault (.unwrittenRead q)) :
    ∃ q ∈ r :: rs, s.Lacks q ∧ needReg c r k = .fault (.unwrittenRead q) := by
  cases c with
  | unwritten => exact ⟨r, List.mem_cons_self, hc.1 rfl, rfl⟩
  | written v =>
    obtain ⟨q, hq, hlacks, hk⟩ := hlater v (h.resolve_left fun hl => nomatch hc.2 hl)
    exact ⟨q, List.mem_cons_of_mem r hq, hlacks, hk⟩

theorem afterLog_bannerQueue (drawn : Bool) : afterLog (bannerQueue drawn) =
    if drawn then encode (.logEmit .banner) else encode (.trHi1 .loop) := by
  cases drawn with
  | false => rfl
  | true => rfl

/-- Settles O32: the two start modes, and the banner drawn or not. -/
theorem initResult : Obligations.InitResult := by
  refine ⟨rfl, fun s => ⟨fun hmode => exec_init_timerRead hmode, fun hmode => ?_⟩⟩
  rw [exec_init_zero hmode, afterLog_bannerQueue]
  rfl

/-- Settles O33: the comparison of words is that of their values, and a missing operand stops it. -/
theorem envEvalResult : Obligations.EnvEvalResult := by
  refine ⟨rfl, fun s => ⟨fun now start hnow hstart => ?_, fun h => ?_⟩⟩
  · simp only [exec_envEval_written hnow hstart, BitVec.le_def]
  · simp only [exec, execEnvEval]
    exact needReg_lacks Iff.rfl h fun now hstart =>
      needReg_lacks Iff.rfl (.inl hstart : _ ∨ False) fun _ => False.elim

/-- Settles O36: with every operand written `EnvWF` and the comparison decide, and the first missing
operand stops it. -/
theorem phaseAResult : Obligations.PhaseAResult := by
  refine ⟨rfl, fun s => ⟨fun d e l r cc hd he hl hr hcc => ?_, fun h => ?_⟩⟩
  · rw [exec_phaseA_written hd he hl hr hcc]
    refine ⟨fun hwf hne => ?_, fun hwf heq => ?_, fun hwf => ?_⟩
    · rw [if_pos hwf, if_neg (show ¬desiredLevel s.cfg d e = l from hne)]
      rfl
    · rw [if_pos hwf, if_pos (show desiredLevel s.cfg d e = l from heq)]
    · rw [if_neg (Bool.eq_false_iff.1 hwf)]
  · simp only [exec, execPhaseA]
    exact needReg_lacks Iff.rfl h fun duty h =>
      needReg_lacks Iff.rfl h fun elapsed hled =>
        needReg_lacks Iff.rfl (.inl hled : _ ∨ False) fun _ => False.elim

/-- Settles O40: the data word of a level is 1 or 0. -/
theorem gpioSetResult : Obligations.GpioSetResult := by
  refine ⟨⟨rfl, rfl⟩, fun l s => ?_⟩
  have hword : ledWord l = if l then 1 else 0 := by
    cases l with
    | false => rfl
    | true => rfl
  rw [← hword]
  exact ⟨exec_gpioSet_answered, exec_gpioSet_error⟩

/-- Settles O51: the head's kind, and LOG's answer where it is the label's. -/
theorem logEmitResult : Obligations.LogEmitResult := by
  refine ⟨⟨⟨rfl, rfl⟩, rfl, rfl⟩, fun k s => ⟨fun hq => ?_, fun ev rest hq =>
    ⟨fun hne => ?_, fun hk ha => ?_, fun hk ha => ?_⟩⟩⟩
  · simp only [exec, execLogEmit, hq]
  · simp only [exec, execLogEmit, hq, if_neg hne]
  · subst hk
    rw [exec_logEmit_accepted hq ha]
    cases rest with
    | nil => rfl
    | cons e q => rfl
  · subst hk
    exact exec_logEmit_held hq ha

/-- PHASE_B with its operands written and `EnvWF`, given what the boundary event makes of them. -/
theorem exec_phaseB_boundary {s : State} {now : U64} {cc d cc' d' : U32} {r r' : Bool}
    {flip : Option LogKind} (hnow : s.now = .written now) (hcc : s.cycleCount = .written cc)
    (hd : s.duty = .written d) (hr : s.rising = .written r) (hwf : envWF s.cfg d r cc = true)
    (count : nextCount s.cfg cc = cc') (duty : nextDuty s.cfg d r cc = d')
    (rising : nextRising s.cfg d r cc = r') (event : flipEvent s.cfg d r cc = flip) :
    exec .phaseB s = .next (boundaryState s now cc' d' r' flip) := by
  rw [exec_phaseB_written hnow hcc hd hr, if_pos hwf, count, duty, rising, event]

/-- Settles O44: the premises of each clause leave one of the five cases of a boundary event. -/
theorem phaseBResult : Obligations.PhaseBResult := by
  refine ⟨rfl, fun s => ⟨fun now cc d r hnow hcc hd hr => ⟨fun hwf => ?fault,
    fun hwf hlt => ?counts, fun hwf hdue hup hlt => ?rises, fun hwf hdue hup hge => ?peaks,
    fun hwf hdue hdown hne => ?falls, fun hwf hdue hdown heq => ?troughs⟩, fun h => ?unwritten⟩⟩
  case fault => rw [exec_phaseB_written hnow hcc hd hr, if_neg (Bool.eq_false_iff.1 hwf)]
  case counts =>
    cases boundaryCase hwf with
    | counts _ count _ duty rising event =>
      exact exec_phaseB_boundary hnow hcc hd hr hwf count duty rising event
    | rises last | peaks last | falls last | troughs last => omega
  case rises =>
    cases boundaryCase hwf with
    | rises _ _ _ count duty _ rising event =>
      exact exec_phaseB_boundary hnow hcc hd hr hwf count duty rising event
    | counts | peaks => omega
    | falls _ down | troughs _ down => cases hup.symm.trans down
  case peaks =>
    cases boundaryCase hwf with
    | peaks _ _ _ count duty _ rising event =>
      exact exec_phaseB_boundary hnow hcc hd hr hwf count duty rising event
    | counts | rises => omega
    | falls _ down | troughs _ down => cases hup.symm.trans down
  case falls =>
    cases boundaryCase hwf with
    | falls _ _ _ count duty _ rising event =>
      exact exec_phaseB_boundary hnow hcc hd hr hwf count duty rising event
    | counts | troughs => omega
    | rises _ up | peaks _ up => cases hdown.symm.trans up
  case troughs =>
    cases boundaryCase hwf with
    | troughs _ _ _ count duty _ rising event =>
      exact exec_phaseB_boundary hnow hcc hd hr hwf count duty rising event
    | counts | falls => omega
    | rises _ up | peaks _ up => cases hdown.symm.trans up
  case unwritten =>
    simp only [exec, execPhaseB]
    exact needReg_lacks Iff.rfl h fun now h =>
      needReg_lacks Iff.rfl h fun cc h =>
        needReg_lacks Iff.rfl h fun d hrising =>
          needReg_lacks Iff.rfl (.inl hrising : _ ∨ False) fun _ => False.elim

/-! ## Runs counted in boundary events (spec/41_envelope.md R155, R156) -/

/-- A step that is none of RESET, INIT and PHASE_B leaves the envelope registers. -/
theorem step_next_sameEnvelope {s t : State} (hreset : s.input.reset = false)
    (hb : s.ctl ≠ encode .phaseB) (hinit : s.ctl ≠ encode .init) (h : step s = .next t) :
    SameEnvelope s t := by
  obtain ⟨-, ⟨hr, -⟩ | ⟨-, -, hcase⟩⟩ := step_next_cases h
  · exact absurd (hreset.symm.trans hr) Bool.false_ne_true
  · rcases hcase with ⟨i, u, hd, hi, hu, rfl⟩ | ⟨_, f, -, -, -, rfl⟩ | ⟨_, r, -, -, -, rfl⟩ |
      ⟨-, rfl⟩
    · have hlabel := decodedStepHasThatLabel s.ctl i hd
      have hw := i.writesEnvelope_eq_false (i.mayBeHeld_iff.1 hi) (fun h => hinit (h ▸ hlabel.symm))
        (fun h => hb (h ▸ hlabel.symm))
      obtain ⟨hduty, hrising, hcount⟩ := (exec_next_frame hu).envelope hw
      exact ⟨by simpa using hduty, by simpa using hrising, by simpa using hcount⟩
    · exact ⟨by simp, by simp, by simp⟩
    · exact ⟨by simp, by simp, by simp⟩
    · exact ⟨by simp, by simp, by simp⟩

/-- A boundary event that does not stop the block is PHASE_B completed on the advanced state. -/
theorem step_phaseB_next {s t : State} (hreset : s.input.reset = false)
    (hctl : s.ctl = encode .phaseB) (h : step s = .next t) (hrunning : t.stop = none) :
    ∃ u, exec .phaseB s.advanceCnt = .next u ∧ t = u.consume := by
  have hdecode : decode s.ctl = .step .phaseB := by rw [hctl, labelDecodesToItsStep]
  obtain ⟨-, ⟨hr, -⟩ | ⟨-, -, hcase⟩⟩ := step_next_cases h
  · exact absurd (hreset.symm.trans hr) Bool.false_ne_true
  · rcases hcase with ⟨i, u, hd, -, hu, ht⟩ | ⟨i, f, -, -, -, rfl⟩ | ⟨i, r, -, -, -, rfl⟩ | ⟨-, rfl⟩
    · cases hdecode.symm.trans hd
      exact ⟨u, hu, ht⟩
    · cases hrunning
    · cases hrunning
    · cases hrunning

theorem State.Envelope.unique {s : State} {e e' : U32 × Bool × U32} (h : s.Envelope e)
    (h' : s.Envelope e') : e = e' := by
  obtain ⟨hd, hr, hc⟩ := h
  obtain ⟨hd', hr', hc'⟩ := h'
  exact Prod.ext (Cell.written.inj (hd.symm.trans hd')) (Prod.ext
    (Cell.written.inj (hr.symm.trans hr')) (Cell.written.inj (hc.symm.trans hc')))

theorem Boundaries.cfg {n : Nat} {s t : State} (h : Boundaries n s t) : t.cfg = s.cfg := by
  induction h with
  | refl s => rfl
  | other _ _ _ _ hstep ih => exact (noStepWritesTheConfiguration _ _ hstep).trans ih
  | boundary _ _ _ hstep _ ih => exact (noStepWritesTheConfiguration _ _ hstep).trans ih

/-- The `n` boundary events of a run are `n` rounds of `envelopeNext`. -/
theorem Boundaries.envelope {n : Nat} {s t : State} (h : Boundaries n s t) {e : U32 × Bool × U32}
    (he : s.Envelope e) : t.Envelope ((envelopeNext s.cfg)^[n] e) := by
  induction h with
  | refl s => exact he
  | other _ hreset hb hinit hstep ih =>
    exact (step_next_sameEnvelope hreset hb hinit hstep).envelope (ih he)
  | boundary hrun hreset hctl hstep hrunning ih =>
    obtain ⟨u, hu, rfl⟩ := step_phaseB_next hreset hctl hstep hrunning
    obtain ⟨d, r, cc, hold, -, hnew⟩ := exec_phaseB_envelope hu
    rw [Function.iterate_succ_apply', (ih he).unique hold, ← hrun.cfg]
    exact hnew

theorem envWF_count {cfg : Cfg} {d : U32} {r : Bool} (hwf : envWF cfg d r 0 = true) {n : Nat}
    (hn : n < cfg.cyclesPerStep.toNat) : envWF cfg d r (BitVec.ofNat 32 n) = true := by
  obtain ⟨hd, -, hr⟩ := (envelopeWellFormedIff cfg d r 0).1 hwf
  exact (envelopeWellFormedIff cfg d r _).2 ⟨hd, by bv_omega, hr⟩

/-- Within a level the count goes up alone. -/
theorem envelopeNext_iterate_count {cfg : Cfg} {d : U32} {r : Bool} (hwf : envWF cfg d r 0 = true)
    {n : Nat} (hn : n < cfg.cyclesPerStep.toNat) :
    (envelopeNext cfg)^[n] (d, r, 0) = (d, r, BitVec.ofNat 32 n) := by
  induction n with
  | zero => rfl
  | succ n ih =>
    have hlast : n < cfg.cyclesPerStep.toNat := Nat.lt_of_succ_lt hn
    have hnat : (BitVec.ofNat 32 n).toNat = n := by bv_omega
    rw [Function.iterate_succ_apply', ih hlast, envelopeNext]
    cases boundaryCase (envWF_count hwf hlast) with
    | counts _ count _ duty rising => rw [count, duty, rising, BitVec.ofNat_add]; rfl
    | rises last | peaks last | falls last | troughs last => omega

/-- The last boundary event of a level makes a duty step, with a flip where it reaches an
extreme. -/
theorem envelopeNext_iterate_level {cfg : Cfg} {d : U32} {r : Bool}
    (hwf : envWF cfg d r 0 = true) :
    (envelopeNext cfg)^[cfg.cyclesPerStep.toNat] (d, r, 0) =
      (if r then d + 1 else d - 1,
        if r then decide (d.toNat + 1 < cfg.dutySteps.toNat) else decide (d.toNat = 1), 0) := by
  obtain ⟨-, hpos, -⟩ := (envelopeWellFormedIff cfg d r 0).1 hwf
  obtain ⟨n, hn⟩ := Nat.exists_eq_add_one.2 (show 0 < cfg.cyclesPerStep.toNat from hpos)
  have hlt : n < cfg.cyclesPerStep.toNat := by omega
  have hnat : (BitVec.ofNat 32 n).toNat = n := by bv_omega
  rw [hn, Function.iterate_succ_apply', envelopeNext_iterate_count hwf hlt, envelopeNext]
  cases boundaryCase (envWF_count hwf hlt) with
  | counts before => omega
  | rises _ up before count duty _ rising => subst up; simp [count, duty, rising, before]
  | peaks _ up top count duty _ rising => subst up; simp [count, duty, rising, top]
  | falls _ down before count duty _ rising =>
    subst down
    simp [count, duty, rising, Nat.ne_of_gt before]
  | troughs _ down bottom count duty _ rising => subst down; simp [count, duty, rising, bottom]

/-- Settles O48: the boundary events of a run iterate the count within a level, and then step it. -/
theorem everyLevelDwellsForItsCycles : Obligations.EveryLevelDwellsForItsCycles := by
  intro n s t d r _ hs hwf hrun
  have ht := hrun.envelope hs
  refine ⟨fun hn => ?_, fun hn => ?_⟩
  · rwa [envelopeNext_iterate_count hwf hn] at ht
  · rw [hn, envelopeNext_iterate_level hwf] at ht
    exact ⟨_, ht⟩

/-- `duty` after `q` levels from the trough, up to the next trough. -/
def dutyAfter (cfg : Cfg) (q : Nat) : Nat := min q (2 * cfg.dutySteps.toNat - q)

/-- `rising` after `q` levels from the trough, up to the next trough. -/
def risingAfter (cfg : Cfg) (q : Nat) : Bool :=
  decide (q < cfg.dutySteps.toNat ∨ q = 2 * cfg.dutySteps.toNat)

/-- The envelope registers `j` boundary events into the level after `q` levels from the trough. -/
def envelopeAt (cfg : Cfg) (q j : Nat) : U32 × Bool × U32 :=
  (BitVec.ofNat 32 (dutyAfter cfg q), risingAfter cfg q, BitVec.ofNat 32 j)

section Period

variable {cfg : Cfg} {q : Nat}

theorem dutyAfter_toNat : (BitVec.ofNat 32 (dutyAfter cfg q)).toNat = dutyAfter cfg q := by
  have hsteps := cfg.dutySteps.isLt
  rw [BitVec.toNat_ofNat, Nat.mod_eq_of_lt]
  rw [dutyAfter]
  omega

theorem envWF_levels (hwf : cfg.wf = true) (hq : q < 2 * cfg.dutySteps.toNat) :
    envWF cfg (BitVec.ofNat 32 (dutyAfter cfg q)) (risingAfter cfg q) 0 = true := by
  obtain ⟨⟨-, -, hcycles⟩, -⟩ := (configWellFormedIff cfg).1 hwf
  rw [envelopeWellFormedIff]
  simp only [BitVec.le_def, BitVec.lt_def, dutyAfter_toNat]
  simp only [dutyAfter, risingAfter, decide_eq_true_eq, decide_eq_false_iff_not,
    show (0 : U32).toNat = 0 from rfl]
  exact ⟨by omega, hcycles, fun hr => by omega, fun hr => by omega⟩

/-- One level of the envelope leads to the next. -/
theorem iterate_envelopeAt (hwf : cfg.wf = true) (hq : q < 2 * cfg.dutySteps.toNat) :
    (envelopeNext cfg)^[cfg.cyclesPerStep.toNat] (envelopeAt cfg q 0) =
      envelopeAt cfg (q + 1) 0 := by
  refine (envelopeNext_iterate_level (envWF_levels hwf hq)).trans ?_
  rw [dutyAfter_toNat, envelopeAt]
  by_cases hup : q < cfg.dutySteps.toNat
  · have rising : risingAfter cfg q = true := by simp [risingAfter, hup]
    have duty : dutyAfter cfg (q + 1) = dutyAfter cfg q + 1 := by simp only [dutyAfter]; omega
    have turns : risingAfter cfg (q + 1) = decide (dutyAfter cfg q + 1 < cfg.dutySteps.toNat) := by
      rw [risingAfter, decide_eq_decide, dutyAfter]; omega
    rw [rising, duty, turns, BitVec.ofNat_add]
    rfl
  · have rising : risingAfter cfg q = false := by
      simp only [risingAfter, decide_eq_false_iff_not]; omega
    have duty : dutyAfter cfg q = dutyAfter cfg (q + 1) + 1 := by simp only [dutyAfter]; omega
    have turns : risingAfter cfg (q + 1) = decide (dutyAfter cfg q = 1) := by
      rw [risingAfter, decide_eq_decide, dutyAfter]; omega
    rw [rising, turns, duty, BitVec.ofNat_add, if_neg Bool.false_ne_true, if_neg Bool.false_ne_true]
    exact congrArg (·, _) (BitVec.add_sub_cancel _ _)

theorem envelopeAt_zero (hwf : cfg.wf = true) : envelopeAt cfg 0 0 = (0, true, 0) := by
  obtain ⟨⟨-, hsteps, -⟩, -⟩ := (configWellFormedIff cfg).1 hwf
  have rising : risingAfter cfg 0 = true := by simp only [risingAfter, decide_eq_true_eq]; omega
  rw [envelopeAt, rising, dutyAfter, Nat.zero_min]
  rfl

theorem envelopeAt_peak (hwf : cfg.wf = true) :
    envelopeAt cfg cfg.dutySteps.toNat 0 = (cfg.dutySteps, false, 0) := by
  obtain ⟨⟨-, hsteps, -⟩, -⟩ := (configWellFormedIff cfg).1 hwf
  have duty : dutyAfter cfg cfg.dutySteps.toNat = cfg.dutySteps.toNat := by
    simp only [dutyAfter]; omega
  have rising : risingAfter cfg cfg.dutySteps.toNat = false := by
    simp only [risingAfter, decide_eq_false_iff_not]; omega
  rw [envelopeAt, rising, duty, BitVec.ofNat_toNat, BitVec.setWidth_eq]
  rfl

theorem envelopeAt_period : envelopeAt cfg (2 * cfg.dutySteps.toNat) 0 = (0, true, 0) := by
  have duty : dutyAfter cfg (2 * cfg.dutySteps.toNat) = 0 := by simp only [dutyAfter]; omega
  have rising : risingAfter cfg (2 * cfg.dutySteps.toNat) = true := by
    simp only [risingAfter, or_true, decide_true]
  rw [envelopeAt, rising, duty]
  rfl

/-- Only the start of a period has the values INIT leaves. -/
theorem eq_zero_of_envelopeAt {j : Nat} (hq : q < 2 * cfg.dutySteps.toNat)
    (hj : j < cfg.cyclesPerStep.toNat) (h : envelopeAt cfg q j = (0, true, 0)) : q = 0 ∧ j = 0 := by
  obtain ⟨hduty, hrest⟩ := Prod.ext_iff.1 h
  obtain ⟨-, hcount⟩ := Prod.ext_iff.1 hrest
  have hd : dutyAfter cfg q = 0 := by rw [← dutyAfter_toNat]; exact congrArg BitVec.toNat hduty
  have hcount : BitVec.ofNat 32 j = 0 := hcount
  rw [dutyAfter] at hd
  exact ⟨by omega, by bv_omega⟩

/-- The envelope after whole levels, from the values INIT leaves. -/
theorem iterate_levels (hwf : cfg.wf = true) (hq : q ≤ 2 * cfg.dutySteps.toNat) :
    (envelopeNext cfg)^[q * cfg.cyclesPerStep.toNat] (0, true, 0) = envelopeAt cfg q 0 := by
  induction q with
  | zero => rw [Nat.zero_mul, envelopeAt_zero hwf]; rfl
  | succ q ih =>
    rw [Nat.succ_mul, Nat.add_comm, Function.iterate_add_apply, ih (Nat.le_of_succ_le hq),
      iterate_envelopeAt hwf hq]

/-- The envelope within a level, from the values INIT leaves. -/
theorem iterate_within_level (hwf : cfg.wf = true) (hq : q < 2 * cfg.dutySteps.toNat) {j : Nat}
    (hj : j < cfg.cyclesPerStep.toNat) :
    (envelopeNext cfg)^[q * cfg.cyclesPerStep.toNat + j] (0, true, 0) = envelopeAt cfg q j := by
  rw [Nat.add_comm, Function.iterate_add_apply, iterate_levels hwf hq.le]
  exact envelopeNext_iterate_count (envWF_levels hwf hq) hj

end Period

/-- At the last boundary event of a level the queue gets PEAK or TROUGH where the next level
turns. -/
theorem Boundaries.queues_flip {n : Nat} {s t u : State} {q : Nat} (hwf : s.cfg.wf = true)
    (hs : s.Envelope (0, true, 0)) (hq : q < 2 * s.cfg.dutySteps.toNat)
    (hlast : n + 1 = (q + 1) * s.cfg.cyclesPerStep.toNat) (hrun : Boundaries n s t)
    (hreset : t.input.reset = false) (hctl : t.ctl = encode .phaseB) (hstep : step t = .next u)
    (hrunning : u.stop = none) :
    (LogKind.peak ∈ u.logQ.map LogEvent.kind ↔
      risingAfter s.cfg q = true ∧ risingAfter s.cfg (q + 1) = false) ∧
    (LogKind.trough ∈ u.logQ.map LogEvent.kind ↔
      risingAfter s.cfg q = false ∧ risingAfter s.cfg (q + 1) = true) := by
  obtain ⟨⟨-, -, hcycles⟩, -⟩ := (configWellFormedIff s.cfg).1 hwf
  have hbefore : n = q * s.cfg.cyclesPerStep.toNat + (s.cfg.cyclesPerStep.toNat - 1) := by
    rw [Nat.succ_mul] at hlast
    omega
  have hu := (hrun.boundary hreset hctl hstep hrunning).envelope hs
  rw [hlast, iterate_levels hwf hq] at hu
  have ht := hrun.envelope hs
  rw [hbefore, iterate_within_level hwf hq (by omega)] at ht
  obtain ⟨-, htrising, -⟩ := ht
  obtain ⟨-, hurising, -⟩ := hu
  obtain ⟨w, hw, rfl⟩ := step_phaseB_next hreset hctl hstep hrunning
  obtain ⟨-, hpeak, htrough, -⟩ := boundaryQueuesItsEvents t.advanceCnt w hw
  simp only [State.advanceCnt_rising, State.consume_rising] at hpeak htrough hurising
  rw [htrising, hurising] at hpeak htrough
  simp only [Cell.written.injEq] at hpeak htrough
  exact ⟨hpeak, htrough⟩

/-- Settles O49: the closed form of the envelope at the peak, at the next trough, between them, and
before the two flips. -/
theorem envelopeIsPeriodic : Obligations.EnvelopeIsPeriodic := by
  intro s t hwf hs half
  obtain ⟨⟨-, hsteps, hcycles⟩, -⟩ := (configWellFormedIff s.cfg).1 hwf
  have htwice : 2 * half = 2 * s.cfg.dutySteps.toNat * s.cfg.cyclesPerStep.toNat :=
    (Nat.mul_assoc _ _ _).symm
  have hpeak : s.cfg.dutySteps.toNat - 1 + 1 = s.cfg.dutySteps.toNat := by omega
  have htrough : 2 * s.cfg.dutySteps.toNat - 1 + 1 = 2 * s.cfg.dutySteps.toNat := by omega
  refine ⟨fun hrun => ?peak, fun hrun => ?period, fun n hpos hlt hrun hback => ?noShorter,
    fun u hrun hreset hctl hstep hgo => ?queuesPeak,
    fun u hrun hreset hctl hstep hgo => ?queuesTrough⟩
  case peak =>
    have ht := hrun.envelope hs
    rwa [iterate_levels hwf (by omega), envelopeAt_peak hwf] at ht
  case period =>
    have ht := hrun.envelope hs
    rwa [htwice, iterate_levels hwf le_rfl, envelopeAt_period] at ht
  case noShorter =>
    have ht := hrun.envelope hs
    have hq : n / s.cfg.cyclesPerStep.toNat < 2 * s.cfg.dutySteps.toNat :=
      Nat.div_lt_of_lt_mul (by rw [Nat.mul_comm, ← htwice]; exact hlt)
    have hj := Nat.mod_lt n hcycles
    have hsplit := Nat.div_add_mod' n s.cfg.cyclesPerStep.toNat
    rw [← hsplit, iterate_within_level hwf hq hj] at ht
    obtain ⟨hq0, hj0⟩ := eq_zero_of_envelopeAt hq hj (ht.unique hback)
    rw [hq0, hj0] at hsplit
    omega
  case queuesPeak =>
    refine (hrun.queues_flip (q := s.cfg.dutySteps.toNat - 1) hwf hs (by omega) ?_ hreset hctl hstep
      hgo).1.2 ⟨decide_eq_true (by omega), decide_eq_false (by omega)⟩
    rw [hpeak]
    exact Nat.sub_add_cancel (Nat.mul_pos hsteps hcycles)
  case queuesTrough =>
    refine (hrun.queues_flip (q := 2 * s.cfg.dutySteps.toNat - 1) hwf hs (by omega) ?_ hreset hctl
      hstep hgo).2.2 ⟨decide_eq_false (by omega), decide_eq_true (by omega)⟩
    rw [htrough, htwice]
    exact Nat.sub_add_cancel (Nat.mul_pos (Nat.mul_pos Nat.two_pos hsteps) hcycles)

end Machine

end Sys2Proof

namespace Sys2Proof

namespace Machine

/-! ## Where a bus error comes from (spec/60_exceptions.md R181) -/

/-- A bus error that the step `i` answers on `s` is the bus's error response, and its record holds
the label of `i`. -/
def OwnBusError (i : Instr) (s : State) (o : Result) : Prop :=
  ∀ w a d, o = .fault (.busError w a d) → s.input.busError = true ∧ w = encode i

/-- A register read raises no bus error of its own. -/
theorem needReg_ownBusError {α : Type} {i : Instr} {s : State} {c : Cell α} {r : RegName}
    {k : α → Result} (hk : ∀ v, OwnBusError i s (k v)) : OwnBusError i s (needReg c r k) := by
  cases c with
  | unwritten => exact nofun
  | written v => exact hk v

theorem Progresses.ownBusError {i : Instr} {s : State} (h : Progresses i s) :
    OwnBusError i s (exec i s) := by
  intro w a d hfault
  cases h with
  | completes t ht => cases ht.symm.trans hfault
  | busError b e error hf =>
    cases hf.symm.trans hfault
    exact ⟨error, rfl⟩

/-- A choice between two answers raises no bus error of its own. -/
theorem ite_ownBusError {i : Instr} {s : State} {p : Prop} [Decidable p] {o o' : Result}
    (ho : OwnBusError i s o) (ho' : OwnBusError i s o') :
    OwnBusError i s (if p then o else o') := by
  split
  · exact ho
  · exact ho'

/-! ## The queue a LOG_EMIT needs (spec/60_exceptions.md R188) -/

/-- The queue is empty, or its head is of another kind than `k`. -/
def State.NoHeadOfKind (s : State) (k : LogKind) : Prop :=
  s.logQ = [] ∨ ∃ ev rest, s.logQ = ev :: rest ∧ ev.kind ≠ k

/-- LOG_EMIT is refused for its queue, or has an event to offer and then completes or holds. -/
theorem exec_logEmit_cases (k : LogKind) (s : State) :
    (s.NoHeadOfKind k ∧ exec (.logEmit k) s = .refused .stateIllFormed) ∨
      (¬s.NoHeadOfKind k ∧ ∃ t, exec (.logEmit k) s = .next t) := by
  obtain ⟨-, result⟩ := logEmitResult
  obtain ⟨onEmpty, onHead⟩ := result k s
  cases hq : s.logQ with
  | nil => exact .inl ⟨.inl hq, onEmpty hq⟩
  | cons ev rest =>
    obtain ⟨onOther, onAccept, onHold⟩ := onHead ev rest hq
    by_cases hk : ev.kind = k
    · refine .inr ⟨?_, ?_⟩
      · simp [State.NoHeadOfKind, hq, hk]
      · cases ha : s.input.logAccept with
        | true => exact ⟨_, onAccept hk ha⟩
        | false => exact ⟨_, onHold hk ha⟩
    · exact .inl ⟨.inr ⟨ev, rest, hq, hk⟩, onOther hk⟩

/-- Every bus error of a meaning is an error response to the one access of its step. -/
theorem exec_ownBusError {i : Instr} {s : State} (hwf : s.cfg.wf = true) :
    OwnBusError i s (exec i s) := by
  cases i with
  | reset => exact (Progresses.completes _ rfl).ownBusError
  | init =>
    cases hmode : s.cfg.initCycleStart with
    | timerRead => exact (Progresses.completes _ (exec_init_timerRead hmode)).ownBusError
    | zero => exact (Progresses.completes _ (exec_init_zero hmode)).ownBusError
  | trHi1 c => exact (Progresses.of_access exec_trHi1_answered exec_trHi1_error).ownBusError
  | trLo c => exact (Progresses.of_access (exec_trLo_answered hwf) exec_trLo_error).ownBusError
  | trHi2 c => exact (Progresses.of_access exec_trHi2_answered exec_trHi2_error).ownBusError
  | trCmp c =>
    exact needReg_ownBusError fun h1 => needReg_ownBusError fun lo => needReg_ownBusError fun h2 =>
      ite_ownBusError nofun nofun
  | envEval => exact needReg_ownBusError fun now => needReg_ownBusError fun start => nofun
  | phaseA =>
    exact needReg_ownBusError fun duty => needReg_ownBusError fun elapsed =>
      needReg_ownBusError fun led => needReg_ownBusError fun rising => needReg_ownBusError fun cc =>
        ite_ownBusError nofun nofun
  | phaseB =>
    exact needReg_ownBusError fun now => needReg_ownBusError fun cc =>
      needReg_ownBusError fun duty => needReg_ownBusError fun rising =>
        ite_ownBusError nofun nofun
  | gpioSet l => exact (Progresses.of_access exec_gpioSet_answered exec_gpioSet_error).ownBusError
  | logEmit k =>
    obtain ⟨-, hrefused⟩ | ⟨-, t, ht⟩ := exec_logEmit_cases k s
    · rw [hrefused]
      exact nofun
    · exact (Progresses.completes t ht).ownBusError

/-- Settles O15: the error response of each access, and the origin of every bus error. -/
theorem busErrorFaultsWithItsRecord : Obligations.BusErrorFaultsWithItsRecord :=
  ⟨fun _ hb => ⟨fun _ => exec_trHi1_error hb, fun _ => exec_trLo_error hb,
      fun _ => exec_trHi2_error hb, fun _ => exec_gpioSet_error hb⟩,
    fun _ _ w a d hwf hfault => exec_ownBusError hwf w a d hfault⟩

/-! ## The sticky records (spec/60_exceptions.md R180, R187) -/

/-- Settles O16: a recorded fault adds itself, a refusal sets the mark, and RESET and the meanings
write neither record. -/
theorem faultAndRefusalRecordsAreSticky : Obligations.FaultAndRefusalRecordsAreSticky := by
  intro s t h
  have nil_added : s.faults = s.faults ++ [] := (List.append_nil s.faults).symm
  obtain ⟨-, ⟨-, rfl⟩ | ⟨-, -, hcase⟩⟩ := step_next_cases h
  · exact ⟨⟨[], nil_added, Nat.zero_le 1⟩, id⟩
  · rcases hcase with ⟨i, u, -, -, hu, rfl⟩ | ⟨i, f, -, -, -, rfl⟩ | ⟨i, r, -, -, -, rfl⟩ | ⟨-, rfl⟩
    · have kept := exec_next_kept hu
      exact ⟨⟨[], kept.faults.trans nil_added, Nat.zero_le 1⟩, kept.refused.trans⟩
    · exact ⟨⟨[f], rfl, Nat.le_refl 1⟩, id⟩
    · exact ⟨⟨[], nil_added, Nat.zero_le 1⟩, fun _ => rfl⟩
    · exact ⟨⟨[], nil_added, Nat.zero_le 1⟩, fun _ => rfl⟩

/-! ## Steps that are refused, fault, or do not come (spec/60_exceptions.md R185 to R191) -/

theorem step_of_halt_faulted {s : State} {f : Fault} (h : s.select = .halt (.faulted f)) :
    step s = .fault f := by
  simp only [step, h]

theorem step_of_halt_refused {s : State} {r : Refusal} (h : s.select = .halt (.refused r)) :
    step s = .refused r := by
  simp only [step, h]

/-- Settles O10: the configuration check comes before RESET. -/
theorem illFormedConfigHasNoStep : Obligations.IllFormedConfigHasNoStep :=
  fun _ hcfg => step_of_halt_refused (State.select_cfg hcfg)

/-- Settles O12: the decoder reserves the label, or reads RESET from it, which `ctl` may not hold. -/
theorem reservedLabelIsRefused : Obligations.ReservedLabelIsRefused := by
  intro s hwf hreset hstop hlabel
  have hselect : s.select = .reject (.reservedLabel s.ctl) s.advanceCnt := by
    obtain hreserved | hctl := hlabel
    · obtain ⟨why, hdecode⟩ := (decode_reserved_iff s.ctl).2 hreserved
      exact State.select_reserved hwf hreset hstop hdecode
    · have hdecode : decode s.ctl = .step .reset := by rw [hctl, labelDecodesToItsStep]
      exact State.select_ctl_reset hwf hreset hstop hdecode rfl
  exact step_of_reject hselect

/-- Settles O13: `step` records the fault on the advanced state, and each fault leaves in the history
the access that its kind made. -/
theorem faultWritesOnlyTheRecord : Obligations.FaultWritesOnlyTheRecord := by
  intro s i f hwf hreset hstop hdecode hi hfault
  obtain ⟨-, onFault, -⟩ := stepRunsTheLabelInCtl s i hwf hreset hstop hdecode hi
  have hstep := onFault f hfault
  cases f with
  | busError w a d =>
    cases d with
    | none => exact hstep
    | some v => exact hstep
  | envInvariant d r cc => exact hstep
  | unwrittenRead r => exact hstep

/-- Settles O14: a stop leaves no step but RESET, which ends it and writes no sticky record. -/
theorem stoppedBlockHasNoStepUntilReset : Obligations.StoppedBlockHasNoStepUntilReset :=
  fun s hwf =>
    ⟨fun _ hstop hreset => step_of_halt_faulted (State.select_stopped hwf hreset hstop),
      fun _ hstop hreset => step_of_halt_refused (State.select_stopped hwf hreset hstop),
      fun hreset => ⟨s.resetBlock.consume, step_of_run (State.select_reset hwf hreset),
        rfl, rfl, rfl, rfl⟩⟩

/-- Settles O50: the queue alone tells a refused LOG_EMIT from one with an event to offer. -/
theorem logEmitRefusesAnIllFormedQueue : Obligations.LogEmitRefusesAnIllFormedQueue := by
  intro k s
  obtain ⟨hq, hrefused⟩ | ⟨hq, t, ht⟩ := exec_logEmit_cases k s
  · exact iff_of_true hq hrefused
  · exact iff_of_false hq fun hrefused => nomatch ht.symm.trans hrefused

end Machine

end Sys2Proof

namespace Sys2Proof

theorem Cfg.standard_wf : Cfg.standard.wf = true := by decide

namespace Machine

/-! ## RESET and the start of a run (spec/70_reset_and_hazards.md R200, R202) -/

/-- An asserted RESET is the next step of any block, whatever `ctl` holds and whether it is stopped. -/
theorem step_of_reset_asserted {s : State} (hwf : s.cfg.wf = true) (hreset : s.input.reset = true) :
    step s = .next s.resetBlock.consume :=
  step_of_run (State.select_reset hwf hreset)

/-- Settles O8: the meaning of RESET is `State.resetBlock`, and a step that runs it uses up one record
of the environment's choices besides. -/
theorem resetResult : Obligations.ResetResult :=
  ⟨rfl, fun _ => ⟨rfl, fun hwf hreset => step_of_reset_asserted hwf hreset⟩⟩

theorem State.lastWrite_powerOn (cfg : Cfg) (c : U64) (g : U32) :
    (State.powerOn cfg c g).lastWrite = none := rfl

/-- INIT needs only that nothing was written since RESET; the queue and the records of a run that
begins are empty. -/
theorem State.powerOn_inv {cfg : Cfg} (hwf : cfg.wf = true) (c : U64) (g : U32) :
    (State.powerOn cfg c g).Inv where
  cfgWF := hwf
  ready := ⟨.init, labelDecodesToItsStep .init, State.lastWrite_powerOn cfg c g⟩
  queue := ⟨Nat.zero_le 2, nofun⟩
  mirror _ hv := nomatch (State.lastWrite_powerOn cfg c g).symm.trans hv
  notRefused := rfl
  faultsBus := nofun
  stopBus := nofun

/-- Settles O56: a run begins in the invariant, and `State.reset` is such a beginning. -/
theorem runInvariantHoldsAfterReset : Obligations.RunInvariantHoldsAfterReset :=
  ⟨fun _ c g hwf => State.powerOn_inv hwf c g, State.powerOn_inv Cfg.standard_wf 0 0⟩

end Machine

end Sys2Proof

namespace Sys2Proof

namespace Machine

/-! ## The values at the start of a run (spec/10_state.md section 5) -/

/-- Settles O9: `ctl` holds the label of INIT, which decodes to INIT, and every other value is the
field that `State.powerOn` sets, whatever the configuration, `C` and `G`. -/
theorem resetStateValues : Obligations.ResetStateValues :=
  ⟨fun _ _ _ => ⟨labelDecodesToItsStep .init, rfl, rfl, rfl, rfl, rfl, rfl, rfl, rfl, rfl, rfl, rfl,
    rfl, rfl, rfl, rfl, rfl, rfl, rfl⟩, rfl, Cfg.standard_wf⟩

end Machine

end Sys2Proof
